-- ==== Sys2Proof/Word.lean ====
section
/-! DEFINITION. The words of the block (spec R8, R9): bytes, 16-bit words, register indices. -/

namespace Sys2Proof

/-- A byte: a general register, a timer, a memory cell (R8 `REG_W`, R46). -/
abbrev Byte := BitVec 8

/-- A 16-bit word: an instruction word, `PC`, `I`, a stack entry (R3, R33, R37, R39). -/
abbrev Word := BitVec 16

/-- A 12-bit absolute address field `nnn` (R81). -/
abbrev Addr12 := BitVec 12

/-- A general register index, the 4-bit fields `x` and `y` (R30, R51). -/
abbrev RegIdx := Fin 16

/-- A 4-bit count, the sprite height `n` of DRW (R81, R82). -/
abbrev Nibble := Fin 16

end Sys2Proof
end

