-- ==== Sys2Proof/Config.lean ====
section
/-! DEFINITION. The parameters of the block (spec R8), the constants the source fixes, the built-in
font (R47), and the free values of the frame's draws (R13). -/

namespace Sys2Proof

/-- `I_OVERFLOW` (R8, R192, D6): what Fx1E does with a result above 0xFFFF. -/
inductive IOverflow where
  | fault
  | wrap16
  deriving DecidableEq, Repr

/-- `STACK_OVERFLOW` (R8, R38, D8): what CALL at SP = 15 and RET at SP = 0 do. -/
inductive StackOverflow where
  | wrap
  | fault
  deriving DecidableEq, Repr

/-- `KEY_PICK` (R8, R213, D12): which key Fx0A stores when several are down. -/
inductive KeyPick where
  | any
  | lowest
  deriving DecidableEq, Repr

/-- `DRW_COORD_LATCH` (R8, R231, D16): whether DRW reads its coordinates before or after VF is cleared. -/
inductive CoordLatch where
  | beforeClear
  | afterClear
  deriving DecidableEq, Repr

/-- The parameters of R8 that change what a step does. `FONT` only fixes the contents of memory at
reset: its default is `Config.font`, and `State.boot` takes any other. -/
structure Params where
  decodeStrict : Bool
  extraOps : Bool
  iOverflow : IOverflow
  stackOverflow : StackOverflow
  keyPick : KeyPick
  clsDirty : Bool
  drwCoordLatch : CoordLatch
  deriving DecidableEq, Repr

/-- The default configuration (R8). -/
def Params.default : Params where
  decodeStrict := false
  extraOps := false
  iOverflow := .fault
  stackOverflow := .wrap
  keyPick := .any
  clsDirty := true
  drwCoordLatch := .beforeClear

/-- `MEM_SIZE` (R8): 4096 bytes, addresses 0x000 to 0xFFF. -/
def Config.memSize : Nat := 0x1000

/-- `PROG_BASE` (R8): where the program image is loaded and execution begins. -/
def Config.progBase : Nat := 0x200

/-- The longest program image (R301): it must fit in [0x200, 0x1000). -/
def Config.maxImage : Nat := 0xE00

/-- `FONT` (R47, D11): the 80 bytes of the built-in font, glyph `d` at address `d * 5`.
PRESUMED by the spec itself (general knowledge); unsafe: see notes/assumptions/5.md. -/
def Config.font : List Byte :=
  [0xF0, 0x90, 0x90, 0x90, 0xF0,
   0x20, 0x60, 0x20, 0x20, 0x70,
   0xF0, 0x10, 0xF0, 0x80, 0xF0,
   0xF0, 0x10, 0xF0, 0x10, 0xF0] ++
  [0x90, 0x90, 0xF0, 0x10, 0x10,
   0xF0, 0x80, 0xF0, 0x10, 0xF0,
   0xF0, 0x80, 0xF0, 0x90, 0xF0,
   0xF0, 0x10, 0x20, 0x40, 0x40] ++
  [0xF0, 0x90, 0xF0, 0x90, 0xF0,
   0xF0, 0x90, 0xF0, 0x10, 0xF0,
   0xF0, 0x90, 0xF0, 0x90, 0x90,
   0xE0, 0x90, 0xE0, 0x90, 0xE0] ++
  [0xF0, 0x80, 0x80, 0x80, 0xF0,
   0xE0, 0x90, 0x90, 0x90, 0xE0,
   0xF0, 0x80, 0xF0, 0x80, 0xF0,
   0xF0, 0x80, 0xF0, 0x80, 0x80]

/-- The random byte of frame `k` when `State.inputs` does not give it: a free value in 0 to
`RND_MAX` = 254, under no law but its range (R210, D19). DESIGN CHOICE, safe:
see notes/assumptions/2.md. -/
opaque Config.rnd : Nat → Fin 255

/-- The key chosen in frame `k` when Fx0A sees several keys down and `State.inputs` does not give
it: a free value (R213, D12). DESIGN CHOICE, safe: see notes/assumptions/3.md. -/
opaque Config.keyPick : Nat → Fin 16

end Sys2Proof
end

