-- ==== Sys2Proof/Syntax.lean ====
section
/-! DEFINITION. The instructions: one constructor per row of spec/opcode_table.json (spec R83, R85,
R88), in the table's order. -/

namespace Sys2Proof

/-- The variants of the decoder (R83, R85). `x` and `y` are register indices, `kk` an immediate
byte, `nnn` a 12-bit address, `n` a sprite height, `w` the offending word. -/
inductive Instr where
  /-- SYS nnn, `0nnn` (R110) -/
  | sys (nnn : Addr12)
  /-- CLS, `00E0` (R230) -/
  | cls
  /-- RET, `00EE` (R113) -/
  | ret
  /-- JP nnn, `1nnn` (R111) -/
  | jp (nnn : Addr12)
  /-- CALL nnn, `2nnn` (R112) -/
  | call (nnn : Addr12)
  /-- SE Vx, kk, `3xkk` (R181) -/
  | seImm (x : RegIdx) (kk : Byte)
  /-- SNE Vx, kk, `4xkk` (R182) -/
  | sneImm (x : RegIdx) (kk : Byte)
  /-- SE Vx, Vy, `5xy0` (R183) -/
  | seReg (x y : RegIdx)
  /-- LD Vx, kk, `6xkk` (R130) -/
  | ldImm (x : RegIdx) (kk : Byte)
  /-- ADD Vx, kk, `7xkk` (R133) -/
  | addImm (x : RegIdx) (kk : Byte)
  /-- LD Vx, Vy, `8xy0` (R131) -/
  | ldReg (x y : RegIdx)
  /-- OR Vx, Vy, `8xy1` (R152) -/
  | orReg (x y : RegIdx)
  /-- AND Vx, Vy, `8xy2` (R153) -/
  | andReg (x y : RegIdx)
  /-- XOR Vx, Vy, `8xy3` (R154) -/
  | xorReg (x y : RegIdx)
  /-- ADD Vx, Vy, `8xy4` (R155) -/
  | addReg (x y : RegIdx)
  /-- SUB Vx, Vy, `8xy5` (R156) -/
  | sub (x y : RegIdx)
  /-- SHR Vx, `8xy6`; `y` is encoded but not read (R157) -/
  | shr (x y : RegIdx)
  /-- SUBN Vx, Vy, `8xy7`, only under `EXTRA_OPS` (R159) -/
  | subn (x y : RegIdx)
  /-- SHL Vx, `8xyE`; `y` is encoded but not read (R158) -/
  | shl (x y : RegIdx)
  /-- SNE Vx, Vy, `9xy0` (R184) -/
  | sneReg (x y : RegIdx)
  /-- LD I, nnn, `Annn` (R132) -/
  | ldI (nnn : Addr12)
  /-- JP V0, nnn, `Bnnn`, only under `EXTRA_OPS` (R114) -/
  | jpV0 (nnn : Addr12)
  /-- RND Vx, kk, `Cxkk` (R210) -/
  | rnd (x : RegIdx) (kk : Byte)
  /-- DRW Vx, Vy, n, `Dxyn` (R231) -/
  | drw (x y : RegIdx) (n : Nibble)
  /-- SKP Vx, `Ex9E` (R211) -/
  | skp (x : RegIdx)
  /-- SKNP Vx, `ExA1` (R212) -/
  | sknp (x : RegIdx)
  /-- LD Vx, DT, `Fx07` (R214) -/
  | ldVxDt (x : RegIdx)
  /-- LD Vx, K, `Fx0A` (R213) -/
  | ldVxK (x : RegIdx)
  /-- LD DT, Vx, `Fx15` (R215) -/
  | ldDtVx (x : RegIdx)
  /-- LD ST, Vx, `Fx18` (R216) -/
  | ldStVx (x : RegIdx)
  /-- ADD I, Vx, `Fx1E` (R192) -/
  | addIVx (x : RegIdx)
  /-- LD F, Vx, `Fx29` (R193) -/
  | ldFVx (x : RegIdx)
  /-- LD B, Vx, `Fx33` (R194) -/
  | ldBVx (x : RegIdx)
  /-- LD [I], Vx, `Fx55` (R190) -/
  | ldMemVx (x : RegIdx)
  /-- LD Vx, [I], `Fx65` (R191) -/
  | ldVxMem (x : RegIdx)
  /-- UNRECOGNIZED(w): every other word (R250) -/
  | unrecognized (w : Word)
  deriving DecidableEq, Repr

end Sys2Proof
end

