-- ==== Sys2Proof/WellFormed.lean ====
section
/-! DEFINITION. Which instructions exist under a configuration (spec R85, R86, R87, R89). Every
operand field is in range by its type; what remains is that SYS is no CLS or RET word, that SUBN
and JP V0 need `EXTRA_OPS`, and that UNRECOGNIZED carries a word no instruction has. -/

namespace Sys2Proof

/-- The low bytes of family 0xF that are instructions (R85). -/
def fxBytes : List Byte := [0x07, 0x0A, 0x15, 0x18, 0x1E, 0x29, 0x33, 0x55, 0x65]

/-- The unrecognized space of R89, by the word's own number, for every configuration. -/
def unrecognizedWord (p : Params) (w : Word) : Bool :=
  let op := w.toNat / 0x1000
  let n := w.toNat % 0x10
  let kk := BitVec.ofNat 8 w.toNat
  (op == 0x5 && p.decodeStrict && n != 0) ||
  (op == 0x9 && p.decodeStrict && n != 0) ||
  (op == 0x8 && ((n == 7 && !p.extraOps) || (8 ≤ n && n != 0xE))) ||
  (op == 0xB && !p.extraOps) ||
  (op == 0xE && kk != 0x9E && kk != 0xA1) ||
  (op == 0xF && !fxBytes.contains kk)

/-- The words of family 0x0 that SYS does not cover (R85; whole words under `DECODE_STRICT`, R86). -/
def clsOrRetWord (p : Params) (nnn : Addr12) : Bool :=
  if p.decodeStrict then nnn == 0x0E0 || nnn == 0x0EE
  else nnn.toNat % 0x100 == 0xE0 || nnn.toNat % 0x100 == 0xEE

/-- The instruction exists under the configuration. -/
def WellFormed (p : Params) : Instr → Bool
  | .sys nnn => !clsOrRetWord p nnn
  | .subn _ _ | .jpV0 _ => p.extraOps
  | .unrecognized w => unrecognizedWord p w
  | .cls | .ret | .jp _ | .call _ => true
  | .seImm _ _ | .sneImm _ _ | .seReg _ _ | .sneReg _ _ => true
  | .ldImm _ _ | .addImm _ _ | .ldReg _ _ | .ldI _ => true
  | .orReg _ _ | .andReg _ _ | .xorReg _ _ | .addReg _ _ | .sub _ _ => true
  | .shr _ _ | .shl _ _ => true
  | .rnd _ _ | .drw _ _ _ | .skp _ | .sknp _ => true
  | .ldVxDt _ | .ldVxK _ | .ldDtVx _ | .ldStVx _ => true
  | .addIVx _ | .ldFVx _ | .ldBVx _ | .ldMemVx _ | .ldVxMem _ => true

end Sys2Proof
end

