-- ==== Sys2Proof/Decode.lean ====
section
/-! DEFINITION. The decoder (spec R83 to R87), total on every word, and the encoder written from the
opcode map (R88). Fields are those of R81; the byte order is that of R60. -/

namespace Sys2Proof

/-- `w[15:12]`, the top nibble (R81). -/
def opField (w : Word) : BitVec 4 := w.extractLsb' 12 4

/-- `w[11:8]`, the first register index (R81). -/
def xField (w : Word) : RegIdx := (w.extractLsb' 8 4).toFin

/-- `w[7:4]`, the second register index (R81). -/
def yField (w : Word) : RegIdx := (w.extractLsb' 4 4).toFin

/-- `w[3:0]`, the low nibble (R81). -/
def nField (w : Word) : Nibble := (w.extractLsb' 0 4).toFin

/-- `w[7:0]`, the low byte (R81). -/
def kkField (w : Word) : Byte := w.extractLsb' 0 8

/-- `w[11:0]`, the absolute address (R81). -/
def nnnField (w : Word) : Addr12 := w.extractLsb' 0 12

/-- Family 0x0, told apart by the low byte (R84, R85), by the whole word under `DECODE_STRICT` (R86). -/
def decodeFamily0 (p : Params) (w : Word) : Instr :=
  if kkField w = 0xE0 ∧ (p.decodeStrict = false ∨ xField w = 0) then .cls
  else if kkField w = 0xEE ∧ (p.decodeStrict = false ∨ xField w = 0) then .ret
  else .sys (nnnField w)

/-- Family 0x8, told apart by the low nibble (R84, R85); `8xy7` only under `EXTRA_OPS` (R87). -/
def decodeFamily8 (p : Params) (w : Word) : Instr :=
  match (nField w).val with
  | 0x0 => .ldReg (xField w) (yField w)
  | 0x1 => .orReg (xField w) (yField w)
  | 0x2 => .andReg (xField w) (yField w)
  | 0x3 => .xorReg (xField w) (yField w)
  | 0x4 => .addReg (xField w) (yField w)
  | 0x5 => .sub (xField w) (yField w)
  | 0x6 => .shr (xField w) (yField w)
  | 0x7 => if p.extraOps then .subn (xField w) (yField w) else .unrecognized w
  | 0xE => .shl (xField w) (yField w)
  | _ => .unrecognized w

/-- Family 0xE, told apart by the low byte (R84, R85). -/
def decodeFamilyE (w : Word) : Instr :=
  match (kkField w).toNat with
  | 0x9E => .skp (xField w)
  | 0xA1 => .sknp (xField w)
  | _ => .unrecognized w

/-- Family 0xF, told apart by the low byte (R84, R85). -/
def decodeFamilyF (w : Word) : Instr :=
  match (kkField w).toNat with
  | 0x07 => .ldVxDt (xField w)
  | 0x0A => .ldVxK (xField w)
  | 0x15 => .ldDtVx (xField w)
  | 0x18 => .ldStVx (xField w)
  | 0x1E => .addIVx (xField w)
  | 0x29 => .ldFVx (xField w)
  | 0x33 => .ldBVx (xField w)
  | 0x55 => .ldMemVx (xField w)
  | 0x65 => .ldVxMem (xField w)
  | _ => .unrecognized w

/-- The decode function (R85, R86, R87): the top nibble first, then the family's own field (R84). -/
def decode (p : Params) (w : Word) : Instr :=
  match (opField w).toNat with
  | 0x0 => decodeFamily0 p w
  | 0x1 => .jp (nnnField w)
  | 0x2 => .call (nnnField w)
  | 0x3 => .seImm (xField w) (kkField w)
  | 0x4 => .sneImm (xField w) (kkField w)
  | 0x5 => if p.decodeStrict ∧ nField w ≠ 0 then .unrecognized w else .seReg (xField w) (yField w)
  | 0x6 => .ldImm (xField w) (kkField w)
  | 0x7 => .addImm (xField w) (kkField w)
  | 0x8 => decodeFamily8 p w
  | 0x9 => if p.decodeStrict ∧ nField w ≠ 0 then .unrecognized w else .sneReg (xField w) (yField w)
  | 0xA => .ldI (nnnField w)
  | 0xB => if p.extraOps then .jpV0 (nnnField w) else .unrecognized w
  | 0xC => .rnd (xField w) (kkField w)
  | 0xD => .drw (xField w) (yField w) (nField w)
  | 0xE => decodeFamilyE w
  | _ => decodeFamilyF w

/-- The instruction word of two bytes in address order: big-endian (R60). -/
def wordOfBytes (hi lo : Byte) : Word := hi ++ lo

/-- The bytes of an instruction word in address order (R60). -/
def bytesOfWord (w : Word) : Byte × Byte := (w.extractLsb' 8 8, w.extractLsb' 0 8)

/-- Why a list of bytes gives no instruction: it is shorter than the two bytes of R91. No word is
refused (R83). -/
inductive DecodeError where
  | truncated
  deriving DecidableEq, Repr

/-- Decode the instruction at the head of a list of bytes, and give the rest (R60, R91). -/
def decodeBytes (p : Params) : List Byte → Except DecodeError (Instr × List Byte)
  | hi :: lo :: rest => .ok (decode p (wordOfBytes hi lo), rest)
  | _ => .error .truncated

/-- A word of the shape `op nnn` (R81). -/
def wordN (op : BitVec 4) (nnn : Addr12) : Word := op ++ nnn

/-- A word of the shape `op x kk` (R81). -/
def wordXK (op : BitVec 4) (x : RegIdx) (kk : Byte) : Word :=
  op ++ (BitVec.ofNat 4 x.val ++ kk)

/-- A word of the shape `op x y n` (R81). -/
def wordXYN (op : BitVec 4) (x y : RegIdx) (n : Nibble) : Word :=
  op ++ (BitVec.ofNat 4 x.val ++ (BitVec.ofNat 4 y.val ++ BitVec.ofNat 4 n.val))

/-- The word of an instruction, from the opcode map (R88). Bits the default decoder does not examine
are 0: bits 11:8 of CLS and RET, bits 3:0 of `5xy0` and `9xy0` (R86). The `y` of SHR and SHL is kept. -/
def encode : Instr → Word
  | .sys nnn => wordN 0x0 nnn
  | .cls => 0x00E0
  | .ret => 0x00EE
  | .jp nnn => wordN 0x1 nnn
  | .call nnn => wordN 0x2 nnn
  | .seImm x kk => wordXK 0x3 x kk
  | .sneImm x kk => wordXK 0x4 x kk
  | .seReg x y => wordXYN 0x5 x y 0
  | .ldImm x kk => wordXK 0x6 x kk
  | .addImm x kk => wordXK 0x7 x kk
  | .ldReg x y => wordXYN 0x8 x y 0x0
  | .orReg x y => wordXYN 0x8 x y 0x1
  | .andReg x y => wordXYN 0x8 x y 0x2
  | .xorReg x y => wordXYN 0x8 x y 0x3
  | .addReg x y => wordXYN 0x8 x y 0x4
  | .sub x y => wordXYN 0x8 x y 0x5
  | .shr x y => wordXYN 0x8 x y 0x6
  | .subn x y => wordXYN 0x8 x y 0x7
  | .shl x y => wordXYN 0x8 x y 0xE
  | .sneReg x y => wordXYN 0x9 x y 0
  | .ldI nnn => wordN 0xA nnn
  | .jpV0 nnn => wordN 0xB nnn
  | .rnd x kk => wordXK 0xC x kk
  | .drw x y n => wordXYN 0xD x y n
  | .skp x => wordXK 0xE x 0x9E
  | .sknp x => wordXK 0xE x 0xA1
  | .ldVxDt x => wordXK 0xF x 0x07
  | .ldVxK x => wordXK 0xF x 0x0A
  | .ldDtVx x => wordXK 0xF x 0x15
  | .ldStVx x => wordXK 0xF x 0x18
  | .addIVx x => wordXK 0xF x 0x1E
  | .ldFVx x => wordXK 0xF x 0x29
  | .ldBVx x => wordXK 0xF x 0x33
  | .ldMemVx x => wordXK 0xF x 0x55
  | .ldVxMem x => wordXK 0xF x 0x65
  | .unrecognized w => w

/-- The (mask, match) pair of an instruction's row in spec/opcode_table.json (R88). -/
def tableRow : Instr → Word × Word
  | .sys _ => (0xF000, 0x0000)
  | .cls => (0xF0FF, 0x00E0)
  | .ret => (0xF0FF, 0x00EE)
  | .jp _ => (0xF000, 0x1000)
  | .call _ => (0xF000, 0x2000)
  | .seImm _ _ => (0xF000, 0x3000)
  | .sneImm _ _ => (0xF000, 0x4000)
  | .seReg _ _ => (0xF000, 0x5000)
  | .ldImm _ _ => (0xF000, 0x6000)
  | .addImm _ _ => (0xF000, 0x7000)
  | .ldReg _ _ => (0xF00F, 0x8000)
  | .orReg _ _ => (0xF00F, 0x8001)
  | .andReg _ _ => (0xF00F, 0x8002)
  | .xorReg _ _ => (0xF00F, 0x8003)
  | .addReg _ _ => (0xF00F, 0x8004)
  | .sub _ _ => (0xF00F, 0x8005)
  | .shr _ _ => (0xF00F, 0x8006)
  | .subn _ _ => (0xF00F, 0x8007)
  | .shl _ _ => (0xF00F, 0x800E)
  | .sneReg _ _ => (0xF000, 0x9000)
  | .ldI _ => (0xF000, 0xA000)
  | .jpV0 _ => (0xF000, 0xB000)
  | .rnd _ _ => (0xF000, 0xC000)
  | .drw _ _ _ => (0xF000, 0xD000)
  | .skp _ => (0xF0FF, 0xE09E)
  | .sknp _ => (0xF0FF, 0xE0A1)
  | .ldVxDt _ => (0xF0FF, 0xF007)
  | .ldVxK _ => (0xF0FF, 0xF00A)
  | .ldDtVx _ => (0xF0FF, 0xF015)
  | .ldStVx _ => (0xF0FF, 0xF018)
  | .addIVx _ => (0xF0FF, 0xF01E)
  | .ldFVx _ => (0xF0FF, 0xF029)
  | .ldBVx _ => (0xF0FF, 0xF033)
  | .ldMemVx _ => (0xF0FF, 0xF055)
  | .ldVxMem _ => (0xF0FF, 0xF065)
  | .unrecognized _ => (0x0000, 0x0000)

/-- A word of a row that the opcode table lists under the condition `EXTRA_OPS`: `8xy7` or `Bnnn` (R87). -/
def extraOpsRow (w : Word) : Bool := w.toNat / 0x1000 == 0xB || w &&& 0xF00F == 0x8007

/-- The table's word for `nbits` bits `w` of an instruction; the bits above are 0. -/
def tableWord (nbits w : Nat) : Word := BitVec.ofNat 16 (w % 2 ^ nbits)

/-- The configuration under which the opcode table gives the row of `w`: the default (R8), with
`EXTRA_OPS` for the two rows that the table lists under that condition (R87).
DESIGN CHOICE, safe: see notes/assumptions/8.md. -/
def tableParams (w : Word) : Params :=
  if extraOpsRow w then { Params.default with extraOps := true } else Params.default

/-- What the decoder reads from an instruction of spec/opcode_table.json, its bytes laid out as the
hardware stores them (R60): the host's interface to the decoder. -/
def decodeTableWord (nbits w : Nat) : Option Instr :=
  let word := tableWord nbits w
  let b := bytesOfWord word
  match decodeBytes (tableParams word) [b.1, b.2] with
  | .ok (i, _) => some i
  | .error _ => none

end Sys2Proof
end

