-- ==== Sys2Proof/Machine/State.lean ====
section
/-! DEFINITION. The machine's state as plain data (spec R30 to R53), its output ports (R278), the
reasons a step can stop, and the state after reset (R50, R310). -/

namespace Sys2Proof.Machine

/-- The display buffer: 32 rows of 64 cells, each 0 or 1 (R42); row 0 at the top, column 0 at the
left (R11). A cell is a Bool, so it holds no other value (R51). -/
abbrev Display := Vector (Vector Bool 64) 32

/-- The blank display (R50). -/
def Display.blank : Display := Vector.replicate 32 (Vector.replicate 64 false)

/-- Memory (R46): the bytes that differ from their reset contents, as (address, byte) pairs, their
addresses strictly rising. `Memory.wf` says the form. -/
structure Memory where
  cells : List Host.Cell
  deriving DecidableEq, Repr

/-- The cause recorded when `Halted` becomes 1 (R45, R262), with the info R262 records. -/
inductive Cause where
  /-- Executing UNRECOGNIZED(w) (R250). -/
  | unrecognized (w : Word)
  /-- An access above 0xFFF: fetch, Dxyn, Fx33, Fx55, Fx65 (R61). It holds both addresses the spec gives:
  the `raised` one, the argument of BoundsFault in the instruction's pseudocode (R190, R191, R194, R231),
  and the `first` address out of range (R262). DESIGN CHOICE, safe: see notes/assumptions/10.md. -/
  | bounds (raised first : Nat)
  /-- The defensive display-index check of DRW; unreachable (R233), so no definition raises it. -/
  | displayBounds (row col : Nat)
  /-- Ex9E or ExA1 with `V[x] > 15` (R211, R212). -/
  | keyIndex (k : Byte)
  /-- Fx1E with a result above 0xFFFF under `I_OVERFLOW = fault` (R192). -/
  | indexOverflow (t : Nat)
  /-- CALL at SP = 15 or RET at SP = 0 under `STACK_OVERFLOW = fault` (R112, R113). -/
  | stack (pc : Word)
  /-- The input collaborator's quit signal (R271); not a fault of the program. -/
  | quit
  deriving DecidableEq, Repr

/-- The tone request, a level (R276). -/
inductive Tone where
  | start
  | stop
  deriving DecidableEq, Repr

/-- The inputs of one frame (R278): `keys_in`, `quit_in`, `rnd_in`, `key_pick_in`. -/
structure FrameInput where
  keys : Vector Bool 16
  quit : Bool
  rnd : Fin 255
  keyPick : Fin 16
  deriving DecidableEq, Repr

/-- The state of the machine. The fields up to `mem` are the spec's state, those up to
`dumpRequest` its output ports, and the last three the model's own (notes/assumptions/1.md, 4.md). -/
structure State where
  /-- V0 to VF (R30) -/
  v : Vector Byte 16
  /-- the index register I (R37) -/
  i : Word
  /-- the program counter PC (R33) -/
  pc : Word
  /-- the stack pointer SP (R38) -/
  sp : BitVec 4
  /-- Stack[0] to Stack[15] (R39) -/
  stack : Vector Word 16
  /-- the delay timer DT (R40) -/
  dt : Byte
  /-- the sound timer ST (R41) -/
  st : Byte
  /-- the display buffer (R42) -/
  disp : Display
  /-- the dirty flag (R43) -/
  dirty : Bool
  /-- the key snapshot Key[0] to Key[15] (R44) -/
  key : Vector Bool 16
  /-- the halt flag (R45) -/
  halted : Bool
  /-- the fault cause (R45) -/
  cause : Option Cause
  /-- the 4096-byte memory (R46) -/
  mem : Memory
  /-- `render_out` of the last frame, `none` when it is not valid (R274, R278) -/
  renderOut : Option Display
  /-- `tone_out` (R276, R278) -/
  toneOut : Tone
  /-- `stop`: the run has ended (R272, R278) -/
  stop : Bool
  /-- `dump_request` (R278, R280) -/
  dumpRequest : Bool
  /-- the parameters (R8); nothing writes them -/
  params : Params
  /-- the inputs of the coming frames, oldest first -/
  inputs : List FrameInput
  /-- how many frames have run -/
  frame : Nat
  deriving DecidableEq, Repr

/-- Why a step gives no next state. -/
inductive Fault where
  /-- Raised by the frame step alone, when `stop` is already 1: the run has ended and R272 gives the
  machine no further iteration. Safe: nothing is claimed of a step the machine does not take. -/
  | runEnded
  deriving DecidableEq, Repr

/-- Why an instruction is refused. -/
inductive Refusal where
  /-- Raised by an arm of `exec` whose instruction has no meaning yet; no arm does. Safe. -/
  | notModelled (mnemonic : String)
  deriving DecidableEq, Repr

/-- The three outcomes of a meaning or a step. -/
abbrev Result := Host.Outcome State Fault Refusal

/-- The machine right after reset with a zero-length image (R50, R300, R310). The output ports and
the model's own fields hold the values named in notes/assumptions/1.md, 4.md and 12.md. -/
def State.reset : State where
  v := Vector.replicate 16 0
  i := 0
  pc := 0x200
  sp := 0
  stack := Vector.replicate 16 0
  dt := 0
  st := 0
  disp := Display.blank
  dirty := false
  key := Vector.replicate 16 false
  halted := false
  cause := none
  mem := ⟨[]⟩
  renderOut := none
  toneOut := .stop
  stop := false
  dumpRequest := false
  params := Params.default
  inputs := []
  frame := 0

end Sys2Proof.Machine
end

