-- ==== Sys2Proof/Machine/Ops.lean ====
section
/-! DEFINITION. The named operations over memory, registers, the stack and the display, and taking a
fault (spec R11, R12, R61, R261). -/

namespace Sys2Proof.Machine

/-! ### Memory (R12, R46, R61, R66) -/

/-- What a byte that nothing has written reads as: its reset contents, the font in [0x000, 0x050)
and 0x00 elsewhere (R50, R66). -/
def Memory.unlisted (a : Nat) : Byte := Config.font.getD a 0

/-- The byte at address `a` in a list of cells. -/
def Memory.lookup (a : Nat) : List Host.Cell → Byte
  | [] => Memory.unlisted a
  | c :: cs => if c.1 = a then c.2 else Memory.lookup a cs

/-- Put a cell at its place in a list of rising addresses. -/
def Memory.insert (a : Nat) (b : Byte) : List Host.Cell → List Host.Cell
  | [] => [(a, b)]
  | c :: cs =>
    if a < c.1 then (a, b) :: c :: cs
    else if c.1 = a then (a, b) :: cs
    else c :: Memory.insert a b cs

/-- Take a cell out of a list of rising addresses. -/
def Memory.erase (a : Nat) : List Host.Cell → List Host.Cell
  | [] => []
  | c :: cs => if c.1 = a then cs else c :: Memory.erase a cs

/-- `MemRead(a, 1)` (R12). -/
def Memory.read (m : Memory) (a : Nat) : Byte := Memory.lookup a m.cells

/-- `MemWrite(a, 1, b)` (R12): nothing is written above 0xFFF. A byte equal to its reset contents is
not listed. -/
def Memory.write (m : Memory) (a : Nat) (b : Byte) : Memory :=
  if a < Config.memSize then
    if b = Memory.unlisted a then ⟨Memory.erase a m.cells⟩ else ⟨Memory.insert a b m.cells⟩
  else m

/-- The `n` bytes from `a` on, in address order (R60, R63). -/
def Memory.readBytes (m : Memory) (a : Nat) : Nat → List Byte
  | 0 => []
  | n + 1 => m.read a :: m.readBytes (a + 1) n

/-- Write bytes from `a` on, one by one in increasing address order (R63). -/
def Memory.writeBytes (m : Memory) (a : Nat) : List Byte → Memory
  | [] => m
  | b :: bs => (m.write a b).writeBytes (a + 1) bs

/-- The canonical form: addresses strictly rise, lie in the space, and no cell holds what an
unlisted address reads as. -/
abbrev Memory.wf (m : Memory) : Prop :=
  m.cells.Pairwise (fun c d => c.1 < d.1) ∧
    ∀ c ∈ m.cells, c.1 < Config.memSize ∧ c.2 ≠ Memory.unlisted c.1

/-! ### Registers (R30, R31, R34, R37 to R41) -/

/-- `V[x]` (R11). -/
def State.getV (s : State) (x : RegIdx) : Byte := s.v[x.val]

/-- `V[x] <- b` (R11). -/
def State.setV (s : State) (x : RegIdx) (b : Byte) : State := { s with v := s.v.set x.val b }

/-- `V[0xF] <- 1` or `0`: the flag write (R31, R150). -/
def State.setFlag (s : State) (f : Bool) : State := s.setV 0xF (if f then 1 else 0)

/-- The registers 0 to `k - 1` loaded from the bytes at `a`, `a + 1`, …, in increasing order (R191). -/
def loadFrom (m : Memory) (a : Nat) (v : Vector Byte 16) : (k : Nat) → Vector Byte 16
  | 0 => v
  | k + 1 => (loadFrom m a v k).setIfInBounds k (m.read (a + k))

/-- `V[0] … V[x]` from the bytes at `a`, `a + 1`, … `a + x` (R191). -/
def State.loadRegs (s : State) (x : RegIdx) (a : Nat) : State :=
  { s with v := loadFrom s.mem a s.v (x.val + 1) }

/-- `PC <- PC + 2`, the shared convention (R34). -/
def State.next (s : State) : State := { s with pc := s.pc + 2 }

/-- `PC <- PC + 4` when the condition holds, else `PC <- PC + 2` (R34, R180). -/
def State.skipIf (s : State) (c : Bool) : State := { s with pc := if c then s.pc + 4 else s.pc + 2 }

/-- `PC <- a` (R34). -/
def State.jump (s : State) (a : Word) : State := { s with pc := a }

/-- `I <- a` (R37). -/
def State.setI (s : State) (a : Word) : State := { s with i := a }

/-- `DT <- b` (R40). -/
def State.setDT (s : State) (b : Byte) : State := { s with dt := b }

/-- `ST <- b` (R41). -/
def State.setST (s : State) (b : Byte) : State := { s with st := b }

/-- Bytes stored from `a` on (R63). -/
def State.store (s : State) (a : Nat) (bs : List Byte) : State :=
  { s with mem := s.mem.writeBytes a bs }

/-! ### The stack (R38, R39) -/

/-- `Stack[j]`. -/
def State.stackAt (s : State) (j : BitVec 4) : Word := s.stack[j.toNat]'(j.isLt)

/-- `Stack[SP] <- a; SP <- (SP + 1) mod 16` (R112). -/
def State.push (s : State) (a : Word) : State :=
  { s with stack := s.stack.set s.sp.toNat a (s.sp.isLt), sp := s.sp + 1 }

/-- `SP <- (SP - 1) mod 16`; the entry is not cleared (R113). -/
def State.pop (s : State) : State := { s with sp := s.sp - 1 }

/-! ### Taking a fault (R261) -/

/-- `raise F`: `Halted <- 1`, and `Cause <- F` only if it is none. Nothing else changes. -/
def State.raise (s : State) (c : Cause) : State :=
  { s with halted := true, cause := s.cause.or (some c) }

/-- BoundsFault of an access that starts at `a` and whose rule raises it with `raised` (R61): `raised` is
recorded, and the first address above 0xFFF that the access touches (R262). -/
def boundsCause (a raised : Nat) : Cause := .bounds raised (max a Config.memSize)

/-- `raise BoundsFault(raised)` for a data access that starts at `a` (R61). -/
def State.raiseBounds (s : State) (a raised : Nat) : State := s.raise (boundsCause a raised)

/-! ### The display (R42, R231) -/

/-- `Disp[row][col]`. -/
def Display.cell (d : Display) (r : Fin 32) (c : Fin 64) : Bool := (d[r.val])[c.val]

/-- `Disp[row][col] <- Disp[row][col] ^ 1`. -/
def Display.flip (d : Display) (r : Fin 32) (c : Fin 64) : Display :=
  d.set r.val ((d[r.val]).set c.val (!(d[r.val])[c.val]))

/-- `k mod 32`: rows wrap around the bottom edge (R231). -/
def wrapRow (k : Nat) : Fin 32 := ⟨k % 32, Nat.mod_lt k (by decide)⟩

/-- `k mod 64`: columns wrap around the right edge (R231). -/
def wrapCol (k : Nat) : Fin 64 := ⟨k % 64, Nat.mod_lt k (by decide)⟩

/-- One pixel of a sprite byte at column `cx + col` of row `r`: bit `7 - col` of the byte. The Bool is
the collision so far (R231). -/
def drawPixel (r : Fin 32) (cx : Nat) (b : Byte) (p : Display × Bool) (col : Nat) : Display × Bool :=
  if b.getLsbD (7 - col) then
    (p.1.flip r (wrapCol (cx + col)), p.2 || p.1.cell r (wrapCol (cx + col)))
  else p

/-- One sprite byte: its eight pixels from left to right (R231). -/
def drawByte (r : Fin 32) (cx : Nat) (b : Byte) (p : Display × Bool) : Display × Bool :=
  (List.range 8).foldl (drawPixel r cx b) p

/-- The sprite's bytes, downwards from row `cy`; each axis wraps (R231). -/
def drawSprite (cx : Nat) (p : Display × Bool) : (cy : Nat) → List Byte → Display × Bool
  | _, [] => p
  | cy, b :: bs => drawSprite cx (drawByte (wrapRow cy) cx b p) (cy + 1) bs

/-- Every cell 0, and the dirty flag if `CLS_DIRTY` (R230). -/
def State.clearDisplay (s : State) : State :=
  { s with disp := Display.blank, dirty := s.dirty || s.params.clsDirty }

/-- The display after a completed draw: the dirty flag is set (R231, R232). -/
def State.setDisplay (s : State) (d : Display) : State := { s with disp := d, dirty := true }

/-! ### Inputs (R271, R278) and fetch (R60, R61, R80) -/

/-- The inputs of a frame that `State.inputs` does not give: no key is down and no quit is signalled
(the convention of 95_test_vectors.md section 12), and the draws are free values.
DESIGN CHOICE, unsafe: see notes/assumptions/1.md. -/
def FrameInput.idle (k : Nat) : FrameInput where
  keys := Vector.replicate 16 false
  quit := false
  rnd := Config.rnd k
  keyPick := Config.keyPick k

/-- The inputs of the current frame. -/
def State.input (s : State) : FrameInput := s.inputs.headD (FrameInput.idle s.frame)

/-- `MemRead(PC, 2)`, or the fault of a fetch that touches an address above 0xFFF (R61, R80). The rule
raises it with no address of its own, so both are the first such address (R262). -/
def State.fetch (s : State) : Except Cause Word :=
  if s.pc.toNat + 1 < Config.memSize then
    .ok (wordOfBytes (s.mem.read s.pc.toNat) (s.mem.read (s.pc.toNat + 1)))
  else .error (boundsCause s.pc.toNat (max s.pc.toNat Config.memSize))

end Sys2Proof.Machine
end

