-- ==== Sys2Proof/Machine/Boot.lean ====
section
/-! DEFINITION. Reset with a program image (spec R300, R301), and a program word placed for the next
fetch. -/

namespace Sys2Proof.Machine

/-- The default of the parameter `FONT` (R8, R47). -/
def standardFont : Vector Byte 80 := ⟨Config.font.toArray, by decide⟩

/-- `Reset(image)` under a configuration and a `FONT` (R300): the font is copied to 0x000 and the image
verbatim to 0x200. An image longer than 0xE00 bytes has no initial state (R301, D20). -/
def State.boot (p : Params) (font : Vector Byte 80) (image : List Byte) : Option State :=
  if image.length ≤ Config.maxImage then
    some { (State.reset.store 0 font.toList).store Config.progBase image with params := p }
  else none

/-- The instruction word `w` where the next fetch reads it (R60, R80). A word of a row that the
opcode table lists under `EXTRA_OPS` needs that option to be an instruction (R87), so it is switched
on for such a word: see notes/assumptions/8.md. -/
def State.placeWord (s : State) (w : Word) : State :=
  let b := bytesOfWord w
  let t := s.store s.pc.toNat [b.1, b.2]
  if extraOpsRow w then { t with params := { t.params with extraOps := true } } else t

end Sys2Proof.Machine
end

