-- ==== Sys2Proof/Machine/Flags.lean ====
section
/-! DEFINITION. The flag computations (spec R150, R155 to R159): the value VF gets as a flag. -/

namespace Sys2Proof.Machine

/-- Carry: the unwrapped sum exceeds 255 (R155). -/
def carryFlag (a b : Byte) : Bool := decide (a.toNat + b.toNat > 255)

/-- The minuend strictly exceeds the subtrahend (R156, R159). -/
def exceedsFlag (a b : Byte) : Bool := decide (a.toNat > b.toNat)

/-- Divide by 2, rounding down (R157). -/
def shiftRight (a : Byte) : Byte := BitVec.ofNat 8 (a.toNat / 2)

/-- Multiply by 2, wrapping (R158). -/
def shiftLeft (a : Byte) : Byte := BitVec.ofNat 8 (a.toNat * 2)

/-- The high bit of the post-shift value (R157, R158). -/
def shiftFlag (r : Byte) : Bool := r.getLsbD 7

end Sys2Proof.Machine
end

