-- ==== Sys2Proof/Machine/Operands.lean ====
section
/-! DEFINITION. Operand assembly (spec R82) and the operands that instructions compute. -/

namespace Sys2Proof.Machine

/-- `zext_16(nnn)` (R82). -/
def addr16 (nnn : Addr12) : Word := nnn.setWidth 16

/-- `zext_16(V[x])` (R82). -/
def byte16 (b : Byte) : Word := b.setWidth 16

/-- The address of glyph `b`: `zext_16(b) * 5`, not masked (R193). -/
def glyphAddr (b : Byte) : Word := byte16 b * 5

/-- The exact sum `I + V[x]` (R192). -/
def indexSum (i : Word) (b : Byte) : Nat := i.toNat + b.toNat

/-- The decimal digits of a byte, hundreds first (R194). -/
def bcdDigits (b : Byte) : List Byte :=
  [BitVec.ofNat 8 (b.toNat / 100), BitVec.ofNat 8 (b.toNat / 10 % 10), BitVec.ofNat 8 (b.toNat % 10)]

/-- `V[0], …, V[x]`: the bytes Fx55 stores (R190). -/
def State.regsUpTo (s : State) (x : RegIdx) : List Byte := s.v.toList.take (x.val + 1)

/-- `{ k in 0..15 | Key[k] }`, in rising order (R213). -/
def State.keysDown (s : State) : List (Fin 16) := (List.finRange 16).filter fun k => s.key[k.val]

/-- The key Fx0A stores when `k :: ks` are down (R213): the only one; or, of several, the lowest under
`KEY_PICK = lowest`, and under `any` the key the input `key_pick_in` chooses (R278). An input that is
no key down chooses the lowest: DESIGN CHOICE, safe, see notes/assumptions/3.md. -/
def State.pickKey (s : State) (k : Fin 16) (ks : List (Fin 16)) : Fin 16 :=
  match ks, s.params.keyPick with
  | [], _ => k
  | _ :: _, .lowest => k
  | _ :: _, .any => if s.input.keyPick ∈ ks then s.input.keyPick else k

/-- `Key[k]` for a key value held in a register; R211 faults before it is used with `k > 15`. -/
def State.keyDown (s : State) (k : Byte) : Bool := s.key.toList.getD k.toNat false

/-- The random byte of the frame, 0 to 254 (R210). -/
def State.rndByte (s : State) : Byte := BitVec.ofNat 8 s.input.rnd.val

/-- The state in which DRW reads its coordinates: before or after VF is cleared (R231). -/
def State.coordState (s : State) : State :=
  match s.params.drwCoordLatch with
  | .beforeClear => s
  | .afterClear => s.setV 0xF 0

end Sys2Proof.Machine
end

