-- ==== Sys2Proof/Machine/Alu.lean ====
section
/-! DEFINITION. Register/register arithmetic with flags (spec/42_alu.md). The result is written
before the flag (R150). -/

namespace Sys2Proof.Machine

/-- OR Vx, Vy (R152). -/
def execOrReg (x y : RegIdx) (s : State) : Result := .next (s.setV x (s.getV x ||| s.getV y)).next

/-- AND Vx, Vy (R153). -/
def execAndReg (x y : RegIdx) (s : State) : Result := .next (s.setV x (s.getV x &&& s.getV y)).next

/-- XOR Vx, Vy (R154). -/
def execXorReg (x y : RegIdx) (s : State) : Result := .next (s.setV x (s.getV x ^^^ s.getV y)).next

/-- ADD Vx, Vy (R155). -/
def execAddReg (x y : RegIdx) (s : State) : Result :=
  .next ((s.setV x (s.getV x + s.getV y)).setFlag (carryFlag (s.getV x) (s.getV y))).next

/-- SUB Vx, Vy (R156). -/
def execSub (x y : RegIdx) (s : State) : Result :=
  .next ((s.setV x (s.getV x - s.getV y)).setFlag (exceedsFlag (s.getV x) (s.getV y))).next

/-- SHR Vx (R157); `y` is not read. -/
def execShr (x : RegIdx) (s : State) : Result :=
  .next ((s.setV x (shiftRight (s.getV x))).setFlag (shiftFlag (shiftRight (s.getV x)))).next

/-- SHL Vx (R158); `y` is not read. -/
def execShl (x : RegIdx) (s : State) : Result :=
  .next ((s.setV x (shiftLeft (s.getV x))).setFlag (shiftFlag (shiftLeft (s.getV x)))).next

/-- SUBN Vx, Vy (R159). -/
def execSubn (x y : RegIdx) (s : State) : Result :=
  .next ((s.setV x (s.getV y - s.getV x)).setFlag (exceedsFlag (s.getV y) (s.getV x))).next

end Sys2Proof.Machine
end

