-- ==== Sys2Proof/Machine/Control.lean ====
section
/-! DEFINITION. Control flow (spec/40_control_flow.md): SYS, JP, CALL, RET, JP V0. -/

namespace Sys2Proof.Machine

/-- SYS nnn (R110): only advances `PC`. -/
def execSys (_nnn : Addr12) (s : State) : Result := .next s.next

/-- JP nnn (R111). -/
def execJp (nnn : Addr12) (s : State) : Result := .next (s.jump (addr16 nnn))

/-- CALL nnn (R112): pushes the address of this CALL. -/
def execCall (nnn : Addr12) (s : State) : Result :=
  if s.params.stackOverflow = .fault ∧ s.sp = 15 then .next (s.raise (.stack s.pc))
  else .next ((s.push s.pc).jump (addr16 nnn))

/-- RET (R113): resumes at the popped address + 2. -/
def execRet (s : State) : Result :=
  if s.params.stackOverflow = .fault ∧ s.sp = 0 then .next (s.raise (.stack s.pc))
  else .next (s.pop.jump (s.pop.stackAt s.pop.sp + 2))

/-- JP V0, nnn (R114). -/
def execJpV0 (nnn : Addr12) (s : State) : Result := .next (s.jump (addr16 nnn + byte16 (s.getV 0)))

end Sys2Proof.Machine
end

