-- ==== Sys2Proof/Machine/Draw.lean ====
section
/-! DEFINITION. Display (spec/46_display.md) and the unrecognized variant (spec/47_unrecognized.md). -/

namespace Sys2Proof.Machine

/-- CLS (R230). -/
def execCls (s : State) : Result := .next s.clearDisplay.next

/-- DRW Vx, Vy, n (R231, R232). -/
def execDrw (x y : RegIdx) (n : Nibble) (s : State) : Result :=
  if n.val > 0 ∧ s.i.toNat + n.val - 1 > 0xFFF then
    .next (s.raiseBounds s.i.toNat (s.i.toNat + n.val - 1))
  else
    let p := drawSprite (s.coordState.getV x).toNat (s.disp, false) (s.coordState.getV y).toNat
      (s.mem.readBytes s.i.toNat n.val)
    .next ((s.setDisplay p.1).setFlag p.2).next

/-- UNRECOGNIZED(w) (R250). -/
def execUnrecognized (w : Word) (s : State) : Result := .next (s.raise (.unrecognized w))

end Sys2Proof.Machine
end

