-- ==== Sys2Proof/Machine/InputTimers.lean ====
section
/-! DEFINITION. Randomness, input and timers (spec/45_random_input_timers.md). -/

namespace Sys2Proof.Machine

/-- RND Vx, kk (R210). -/
def execRnd (x : RegIdx) (kk : Byte) (s : State) : Result := .next (s.setV x (s.rndByte &&& kk)).next

/-- SKP Vx (R211). -/
def execSkp (x : RegIdx) (s : State) : Result :=
  if (s.getV x).toNat > 0xF then .next (s.raise (.keyIndex (s.getV x)))
  else .next (s.skipIf (s.keyDown (s.getV x)))

/-- SKNP Vx (R212). -/
def execSknp (x : RegIdx) (s : State) : Result :=
  if (s.getV x).toNat > 0xF then .next (s.raise (.keyIndex (s.getV x)))
  else .next (s.skipIf (!s.keyDown (s.getV x)))

/-- LD Vx, K (R213): with no key down nothing changes, `PC` included, and the same word is executed
again in the next frame. -/
def execLdVxK (x : RegIdx) (s : State) : Result :=
  match s.keysDown with
  | [] => .next s
  | k :: ks => .next (s.setV x (BitVec.ofNat 8 (s.pickKey k ks).val)).next

/-- LD Vx, DT (R214). -/
def execLdVxDt (x : RegIdx) (s : State) : Result := .next (s.setV x s.dt).next

/-- LD DT, Vx (R215). -/
def execLdDtVx (x : RegIdx) (s : State) : Result := .next (s.setDT (s.getV x)).next

/-- LD ST, Vx (R216). -/
def execLdStVx (x : RegIdx) (s : State) : Result := .next (s.setST (s.getV x)).next

end Sys2Proof.Machine
end

