-- ==== Sys2Proof/Machine/MemIndex.lean ====
section
/-! DEFINITION. Memory block transfer and index manipulation (spec/44_memory_index.md). Each check
covers the whole range and comes before the first write (R263). -/

namespace Sys2Proof.Machine

/-- LD [I], Vx (R190): stores V0 to Vx; `I` is unchanged. -/
def execLdMemVx (x : RegIdx) (s : State) : Result :=
  if s.i.toNat + x.val > 0xFFF then .next (s.raiseBounds s.i.toNat (s.i.toNat + x.val))
  else .next (s.store s.i.toNat (s.regsUpTo x)).next

/-- LD Vx, [I] (R191): loads V0 to Vx; `I` is unchanged. -/
def execLdVxMem (x : RegIdx) (s : State) : Result :=
  if s.i.toNat + x.val > 0xFFF then .next (s.raiseBounds s.i.toNat (s.i.toNat + x.val))
  else .next (s.loadRegs x s.i.toNat).next

/-- ADD I, Vx (R192): no flag, no 12-bit mask; `I_OVERFLOW` decides beyond 16 bits. -/
def execAddIVx (x : RegIdx) (s : State) : Result :=
  if indexSum s.i (s.getV x) > 0xFFFF ∧ s.params.iOverflow = .fault then
    .next (s.raise (.indexOverflow (indexSum s.i (s.getV x))))
  else .next (s.setI (BitVec.ofNat 16 (indexSum s.i (s.getV x)))).next

/-- LD F, Vx (R193). -/
def execLdFVx (x : RegIdx) (s : State) : Result := .next (s.setI (glyphAddr (s.getV x))).next

/-- LD B, Vx (R194): `I` is unchanged. -/
def execLdBVx (x : RegIdx) (s : State) : Result :=
  if s.i.toNat + 2 > 0xFFF then .next (s.raiseBounds s.i.toNat (s.i.toNat + 2))
  else .next (s.store s.i.toNat (bcdDigits (s.getV x))).next

end Sys2Proof.Machine
end

