-- ==== Sys2Proof/Machine/Transfer.lean ====
section
/-! DEFINITION. Register and immediate transfer (spec/41_transfer.md). -/

namespace Sys2Proof.Machine

/-- LD Vx, kk (R130). -/
def execLdImm (x : RegIdx) (kk : Byte) (s : State) : Result := .next (s.setV x kk).next

/-- LD Vx, Vy (R131). -/
def execLdReg (x y : RegIdx) (s : State) : Result := .next (s.setV x (s.getV y)).next

/-- LD I, nnn (R132). -/
def execLdI (nnn : Addr12) (s : State) : Result := .next (s.setI (addr16 nnn)).next

/-- ADD Vx, kk (R133): wraps, no flag. -/
def execAddImm (x : RegIdx) (kk : Byte) (s : State) : Result := .next (s.setV x (s.getV x + kk)).next

end Sys2Proof.Machine
end

