-- ==== Sys2Proof/Machine/Frame.lean ====
section
/-! DEFINITION. The frame step (spec R270): poll, halt check, Execute, render, timer tick, tone. -/

namespace Sys2Proof.Machine

/-- The key snapshot of this frame replaces all 16 keys (R271). -/
def State.takeKeys (s : State) : State := { s with key := s.input.keys }

/-- Step (1), the input poll (R271): the key snapshot is replaced, and a quit halts. -/
def State.poll (s : State) : State :=
  if s.input.quit then s.takeKeys.raise .quit else s.takeKeys

/-- The inputs of this frame are used up. The model's own bookkeeping (notes/assumptions/1.md). -/
def State.endFrame (s : State) : State := { s with inputs := s.inputs.tail, frame := s.frame + 1 }

/-- Step (2) with `Halted = 1`: the run ends; nothing is rendered (R272). -/
def State.endRun (s : State) : State :=
  { s with stop := true, dumpRequest := true, renderOut := none }

/-- Step (3), Execute (R80): fetch, decode, perform exactly one instruction. -/
def execute (s : State) : Result :=
  match s.fetch with
  | .error c => .next (s.raise c)
  | .ok w => exec (decode s.params w) s

/-- Step (4), the display-dirty controller (R274). -/
def State.render (s : State) : State :=
  { s with renderOut := if s.dirty then some s.disp else none, dirty := false }

/-- A timer decremented by 1 when it is positive (R275). -/
def decTimer (b : Byte) : Byte := if b = 0 then 0 else b - 1

/-- Step (5), the timer tick (R275). -/
def State.tick (s : State) : State := { s with dt := decTimer s.dt, st := decTimer s.st }

/-- Step (6), the tone request (R276). -/
def State.tone (s : State) : State := { s with toneOut := if s.st = 0 then .stop else .start }

/-- Steps (4) to (6), and the frame's end. -/
def State.finishFrame (s : State) : State := s.render.tick.tone.endFrame

/-- One loop iteration (R270). A run that has ended has no further one (R272). -/
def frame (s : State) : Result :=
  if s.stop then .fault .runEnded
  else if s.poll.halted then .next s.poll.endRun.endFrame
  else
    match execute s.poll with
    | .next t => .next t.finishFrame
    | .fault r => .fault r
    | .refused r => .refused r

end Sys2Proof.Machine
end

