-- ==== Sys2Proof/Machine/Step.lean ====
section
/-! DEFINITION. The step of the machine: one frame (spec R270), and the host's way to place an
instruction for it. -/

namespace Sys2Proof.Machine

/-- One step is one loop iteration (R270, R273). -/
def step (s : State) : Host.Outcome State Fault Refusal := frame s

/-- `s` with an instruction of spec/opcode_table.json stored where the next step fetches it. -/
def State.withFetchWord (s : State) (nbits w : Nat) : State := s.placeWord (tableWord nbits w)

end Sys2Proof.Machine
end

