-- ==== Sys2Proof/Safety.lean ====
section
/-! DEFINITION. What counts as a safe run, in the terms claims use, and the invariants of the machine
(spec R36, R45, R51, R263, R272, R310). -/

namespace Sys2Proof.Machine

/-- The machine is Running (R45). -/
abbrev State.running (s : State) : Prop := s.halted = false

/-- The machine has halted on a fault of the program; R263 lets a claim rest on `halted` and `cause`
alone. -/
abbrev State.faulted (s : State) : Prop := s.halted = true ∧ s.cause ≠ some .quit

/-- The run has ended because the input source asked for it (R272), and not by a fault. -/
abbrev State.endedByQuit (s : State) : Prop := s.stop = true ∧ s.cause = some .quit

/-- A cause is recorded exactly when the machine has halted (R45, R261). -/
abbrev State.causeAgrees (s : State) : Prop := s.halted = s.cause.isSome

/-- The highest value `PC` takes (R36); under `EXTRA_OPS`, JP V0 reaches 0x10FE (R114). -/
def pcLimit (p : Params) : Nat := if p.extraOps then 0x10FE else 0x1002

/-- The bound of R36: `PC` within its limit, and every stack entry the address of a fetched CALL. -/
abbrev State.pcBounded (s : State) : Prop :=
  s.pc.toNat ≤ pcLimit s.params ∧ ∀ j : BitVec 4, (s.stackAt j).toNat ≤ 0xFFE

/-- `t` is the state after zero or more steps from `s`. -/
inductive Steps (s : State) : State → Prop where
  | refl : Steps s s
  | tail (t u : State) (hs : Steps s t) (h : step t = .next u) : Steps s u

/-- The launch states (R300, R310): reset with an image and a font, under a configuration, before any sequence
of inputs. -/
def State.launched (s : State) : Prop :=
  ∃ p font image ins t, State.boot p font image = some t ∧ s = { t with inputs := ins }

/-- The states of the runs from a launch. -/
def State.reachable (s : State) : Prop := ∃ l : State, l.launched ∧ Steps l s

/-- A safe run from `s`: no state of it has faulted. -/
def State.safeFrom (s : State) : Prop := ∀ t, Steps s t → ¬ t.faulted

/-! ### The picture a sprite makes (R231), for claims about DRW -/

/-- Whether the sprite `bs` drawn at column `cx`, row `cy` has a set pixel on cell (`r`, `c`): the cell
lies `dr` rows below and `dc` columns right of the sprite's corner, each axis taken around its edge,
and bit `7 - dc` of byte `dr` is 1. -/
def spritePixel (cx cy : Nat) (bs : List Byte) (r : Fin 32) (c : Fin 64) : Bool :=
  let dr := (r.val + 32 - cy % 32) % 32
  let dc := (c.val + 64 - cx % 64) % 64
  decide (dr < bs.length) && decide (dc < 8) && (bs.getD dr 0).getLsbD (7 - dc)

end Sys2Proof.Machine
end

