-- ==== Sys2Proof/Certificates/Slice0/Obligations.lean ====
section
/-! DEFINITION. The statements for the provers, each from the numbered rules of spec/. A statement
about an instruction gives the next state by its parts: what each rule says is written, and, as one
equation `t = { s with … }`, that every field not named there is unchanged. -/

namespace Sys2Proof.Claims

open Sys2Proof.Machine

/-- Every byte of memory reads as before. -/
def keepsMemory (s t : State) : Prop := ∀ a, t.mem.read a = s.mem.read a

/-- Only general registers and `PC` may differ; every byte of memory reads as before. -/
def onlyRegsPc (s t : State) : Prop := t = { s with v := t.v, pc := t.pc } ∧ keepsMemory s t

/-- Only `PC` may differ; every byte of memory reads as before. -/
def onlyPc (s t : State) : Prop := t = { s with pc := t.pc } ∧ keepsMemory s t

/-- Only `I` and `PC` may differ; every byte of memory reads as before. -/
def onlyIndexPc (s t : State) : Prop := t = { s with i := t.i, pc := t.pc } ∧ keepsMemory s t

/-- Every general register outside `x` is unchanged. -/
def otherRegs (s t : State) (x : RegIdx) : Prop := ∀ r, r ≠ x → t.getV r = s.getV r

/-- Every general register outside `x` and VF is unchanged. -/
def otherRegsVF (s t : State) (x : RegIdx) : Prop := ∀ r, r ≠ x → r ≠ 0xF → t.getV r = s.getV r

/-- Fault entry (R261): the machine halts, with this cause unless one is already recorded. Nothing
else is claimed of a faulted state (R263). -/
def faultsWith (s t : State) (c : Cause) : Prop :=
  t.halted = true ∧ (s.cause = none → t.cause = some c) ∧ (∀ d, s.cause = some d → t.cause = some d)

/-- Fault entry of a data access that starts at `a` (R61): the address its rule raises BoundsFault with, and
the first address above 0xFFF (R262); that the cause holds both is the model's choice (log 10). -/
def boundsFaults (s t : State) (a raised : Nat) : Prop := faultsWith s t (.bounds raised (max a 0x1000))

/-- The general registers an instruction writes (R32), Fx0A's only when a key is down. -/
def writesReg (i : Instr) (r : RegIdx) : Prop :=
  (∃ kk, i = .ldImm r kk ∨ i = .addImm r kk ∨ i = .rnd r kk) ∨
  (∃ y, i = .ldReg r y ∨ i = .orReg r y ∨ i = .andReg r y ∨ i = .xorReg r y) ∨
  (∃ x y, (r = x ∨ r = 0xF) ∧
    (i = .addReg x y ∨ i = .sub x y ∨ i = .subn x y ∨ i = .shr x y ∨ i = .shl x y)) ∨
  (r = 0xF ∧ ∃ x y n, i = .drw x y n) ∨
  i = .ldVxDt r ∨ i = .ldVxK r ∨ ∃ x, r ≤ x ∧ i = .ldVxMem x

/-- VF as a flag: 1 or 0. -/
def flagByte (f : Bool) : Byte := if f then 1 else 0

/-- The frame reaches its instruction: the run has not ended, the machine is Running and the poll
signals no quit (R270). -/
def reachesExecute (s : State) : Prop := s.stop = false ∧ s.running ∧ s.input.quit = false

/-- The bytes at `PC` are an instruction word, and it decodes to `i` (R60, R80). -/
def fetches (s : State) (i : Instr) : Prop :=
  s.pc.toNat ≤ 0xFFE ∧
    decode s.params (wordOfBytes (s.mem.read s.pc.toNat) (s.mem.read (s.pc.toNat + 1))) = i

/-- The column DRW draws at (R231): VF counts as 0 only under `DRW_COORD_LATCH = after_clear`. -/
def drawCoord (s : State) (x : RegIdx) : Nat :=
  if s.params.drwCoordLatch = .afterClear ∧ x = 0xF then 0 else (s.getV x).toNat

/-- The `n` sprite bytes at `I` (R231). -/
def spriteBytes (s : State) (n : Nibble) : List Byte :=
  (List.range n.val).map fun k => s.mem.read (s.i.toNat + k)

/-- The sprite of `DRW Vx, Vy, n` has a set pixel on cell (`r`, `c`) (R231). -/
def drawsOn (s : State) (x y : RegIdx) (n : Nibble) (r : Fin 32) (c : Fin 64) : Bool :=
  spritePixel (drawCoord s x) (drawCoord s y) (spriteBytes s n) r c

/-- The reset value of every piece of state but memory (R50). -/
def resetValued (s : State) : Prop :=
  (∀ x, s.getV x = 0) ∧ s.i = 0 ∧ s.pc = 0x200 ∧ s.sp = 0 ∧ (∀ j, s.stackAt j = 0) ∧ s.dt = 0 ∧
  s.st = 0 ∧ (∀ r c, s.disp.cell r c = false) ∧ s.dirty = false ∧ (∀ k : Fin 16, s.key[k.val] = false) ∧
  s.halted = false ∧ s.cause = none

/-- The sprite fits in memory: DRW does not fault (R231). -/
def spriteFits (s : State) (n : Nibble) : Prop := n.val = 0 ∨ s.i.toNat + n.val - 1 ≤ 0xFFF

end Sys2Proof.Claims

open Sys2Proof Sys2Proof.Machine Sys2Proof.Claims

/-! ### The decoder and the encoder -/

/-- R83, R85, R88: decoding the word of an instruction that exists under a configuration gives the
instruction back, every operand at every value. -/
def Obligations.DecodeOfEncode : Prop :=
  ∀ p i, WellFormed p i = true → decode p (encode i) = i

/-- R83, R89: every word decodes to an instruction that exists under the configuration. -/
def Obligations.DecodedIsWellFormed : Prop :=
  ∀ p w, WellFormed p (decode p w) = true

/-- R83, R86: under `DECODE_STRICT` the decoder examines or keeps every bit of the word. -/
def Obligations.StrictDecodeKeepsEveryBit : Prop :=
  ∀ p w, p.decodeStrict = true → encode (decode p w) = w

/-- R86, R88: the families whose decoding `DECODE_STRICT` changes, under both of its values. -/
def Obligations.DecodeStrictFamilies : Prop :=
  ∀ p w,
    (w.toNat / 0x1000 = 0x0 → p.decodeStrict = true →
      decode p w = if w = 0x00E0 then .cls else if w = 0x00EE then .ret else .sys (nnnField w)) ∧
    (w.toNat / 0x1000 = 0x0 → p.decodeStrict = false →
      decode p w = if w.toNat % 256 = 0xE0 then .cls else if w.toNat % 256 = 0xEE then .ret
        else .sys (nnnField w)) ∧
    (w.toNat / 0x1000 = 0x5 →
      decode p w = if p.decodeStrict = true ∧ w.toNat % 16 ≠ 0 then .unrecognized w
        else .seReg (xField w) (yField w)) ∧
    (w.toNat / 0x1000 = 0x9 →
      decode p w = if p.decodeStrict = true ∧ w.toNat % 16 ≠ 0 then .unrecognized w
        else .sneReg (xField w) (yField w))

/-- R87: `EXTRA_OPS` adds 8xy7 and Bnnn; without it both are unrecognized. -/
def Obligations.ExtraOpsDecode : Prop :=
  ∀ p w,
    (w.toNat / 0x1000 = 0x8 ∧ w.toNat % 16 = 7 →
      decode p w = if p.extraOps then .subn (xField w) (yField w) else .unrecognized w) ∧
    (w.toNat / 0x1000 = 0xB →
      decode p w = if p.extraOps then .jpV0 (nnnField w) else .unrecognized w)

/-- R83, R89: a word decodes to UNRECOGNIZED exactly when it lies in the unrecognized space, and the
variant carries the word. -/
def Obligations.UnrecognizedSpace : Prop :=
  ∀ p w, ((∃ u, decode p w = .unrecognized u) ↔ unrecognizedWord p w = true) ∧
    ∀ u, decode p w = .unrecognized u → u = w

/-- R85: one word of every top nibble, and one of every group of instructions of the spec, written out from
its encoding, under the default configuration. -/
def Obligations.SpecWordsDecode : Prop :=
  decode Params.default 0x0123 = .sys 0x123 ∧
  decode Params.default 0x00EE = .ret ∧
  decode Params.default 0x1ABC = .jp 0xABC ∧
  decode Params.default 0x2DEF = .call 0xDEF ∧
  decode Params.default 0x3A57 = .seImm 0xA 0x57 ∧
  decode Params.default 0x4210 = .sneImm 2 0x10 ∧
  decode Params.default 0x5120 = .seReg 1 2 ∧
  decode Params.default 0x6A42 = .ldImm 0xA 0x42 ∧
  decode Params.default 0x7F01 = .addImm 0xF 0x01 ∧
  decode Params.default 0x8124 = .addReg 1 2 ∧
  decode Params.default 0x9CD0 = .sneReg 0xC 0xD ∧
  decode Params.default 0xA2F0 = .ldI 0x2F0 ∧
  decode Params.default 0xB123 = .unrecognized 0xB123 ∧
  decode Params.default 0xC30F = .rnd 3 0x0F ∧
  decode Params.default 0xD125 = .drw 1 2 5 ∧
  decode Params.default 0xE4A1 = .sknp 4 ∧
  decode Params.default 0xF365 = .ldVxMem 3 ∧
  decode Params.default 0xF51E = .addIVx 5 ∧
  decode Params.default 0xF207 = .ldVxDt 2

/-! ### The frame step -/

/-- R60, R61, R62: a fetch at any `PC` up to 0xFFE, odd or even, reads the byte at `PC` as the high byte
of the word and the byte after it as the low byte; above 0xFFE it reads nothing. -/
def Obligations.FetchIsBigEndian : Prop :=
  ∀ s : State,
    (s.pc.toNat ≤ 0xFFE → ∃ w, s.fetch = .ok w ∧
      w.toNat = (s.mem.read s.pc.toNat).toNat * 256 + (s.mem.read (s.pc.toNat + 1)).toNat) ∧
    (s.pc.toNat > 0xFFE → ∀ w, s.fetch ≠ .ok w)

/-- R80, R270, R273: a frame that reaches its instruction executes exactly the instruction decoded
from the bytes at `PC`, in the state with the frame's key snapshot, and
then finishes the frame. -/
def Obligations.StepRunsFetchedInstruction : Prop :=
  ∀ (s : State) i, reachesExecute s → fetches s i →
    ∀ u, exec i s.takeKeys = .next u → step s = .next u.finishFrame

/-- R274, R275, R276: what the end of a frame makes of the state `u` the instruction left. The last two
fields are the model's own (log 1): the frame's inputs are used up. -/
def Obligations.FrameEndRendersTicksAndSounds : Prop :=
  ∀ u : State,
    u.finishFrame.renderOut = (if u.dirty then some u.disp else none) ∧
    u.finishFrame.dirty = false ∧
    u.finishFrame.dt.toNat = u.dt.toNat - 1 ∧
    u.finishFrame.st.toNat = u.st.toNat - 1 ∧
    (u.finishFrame.toneOut = .start ↔ u.finishFrame.st.toNat > 0) ∧
    u.finishFrame = { u with
      renderOut := u.finishFrame.renderOut, dirty := false, dt := u.finishFrame.dt,
      st := u.finishFrame.st, toneOut := u.finishFrame.toneOut,
      inputs := u.inputs.tail, frame := u.frame + 1 }

/-- R61, R262: a fetch that touches an address above 0xFFF halts the machine with the first such address,
in both of the addresses that the cause holds (log 10). -/
def Obligations.FetchOutOfRangeFaults : Prop :=
  ∀ (s : State), reachesExecute s → s.pc.toNat ≥ 0xFFF →
    ∃ t, step s = .next t ∧ ∃ a, a = (if s.pc.toNat = 0xFFF then 0x1000 else s.pc.toNat) ∧
      faultsWith s t (.bounds a a)

/-- R271, R272: a quit seen by the poll of a Running machine halts and ends the run in the same iteration:
the keys are replaced, the first cause stands, no instruction executes, no timer ticks and nothing is
rendered. That `render_out` is none and `tone_out` holds its level is the model's choice (log 13), and that
the frame's input is used up and the frame counted is its own bookkeeping (log 1). -/
def Obligations.QuitEndsRun : Prop :=
  ∀ (s : State), s.stop = false → s.running → s.input.quit = true →
    ∃ t, step s = .next t ∧ t.halted = true ∧ t.stop = true ∧ t.dumpRequest = true ∧
      t.key = s.input.keys ∧ (s.cause = none → t.cause = some .quit) ∧
      (∀ d, s.cause = some d → t.cause = some d) ∧
      t = { s with
        halted := true, stop := true, dumpRequest := true, key := t.key, cause := t.cause,
        renderOut := none, inputs := s.inputs.tail, frame := s.frame + 1 }

/-- R271, R272: an iteration that starts with `Halted = 1` polls, ends the run and does nothing else: the
keys are replaced, the dump is requested, and every other field is left as it was, `Halted` and the cause
included. That `render_out` is none and `tone_out` holds its level is the model's choice (log 13), and that
the frame's input is used up and the frame counted is its own bookkeeping (log 1). -/
def Obligations.HaltCheckEndsRun : Prop :=
  ∀ (s : State), s.stop = false → s.halted = true → s.causeAgrees →
    ∃ t, step s = .next t ∧ t.halted = true ∧ t.cause = s.cause ∧ t.stop = true ∧
      t.dumpRequest = true ∧ t.key = s.input.keys ∧
      t = { s with
        stop := true, dumpRequest := true, key := t.key, renderOut := none,
        inputs := s.inputs.tail, frame := s.frame + 1 }

/-- R272: a run that has ended takes no further step. That the model says so with a fault of its own is
the model's choice (log 11). -/
def Obligations.EndedRunTakesNoStep : Prop :=
  ∀ (s : State), s.stop = true → step s = .fault .runEnded

/-- R274: an iteration that starts clean requests a render exactly when its instruction is a draw that
does not fault, or a clear under `CLS_DIRTY`. -/
def Obligations.RenderOnlyAfterDrawOrClear : Prop :=
  ∀ (s : State) i t, reachesExecute s → fetches s i → s.dirty = false → step s = .next t → t.running →
    (t.renderOut.isSome = true ↔
      (∃ x y n, i = .drw x y n) ∨ (i = .cls ∧ s.params.clsDirty = true))

/-- R305, R275: a timer set in a frame is ticked at the end of the same frame. -/
def Obligations.TimerWriteTicksInItsFrame : Prop :=
  ∀ (s : State) x, reachesExecute s →
    (fetches s (.ldDtVx x) → ∃ t, step s = .next t ∧ t.dt.toNat = (s.getV x).toNat - 1) ∧
    (fetches s (.ldStVx x) → ∃ t, step s = .next t ∧ t.st.toNat = (s.getV x).toNat - 1) ∧
    (fetches s (.ldVxDt x) → ∃ t, step s = .next t ∧ t.getV x = s.dt)

/-- R213, R303: a key wait with no key down leaves `PC` and the registers alone, and the frame still
counts the timers down. -/
def Obligations.KeyWaitReExecutes : Prop :=
  ∀ (s : State) x, reachesExecute s → fetches s (.ldVxK x) → (∀ k : Fin 16, s.input.keys[k.val] = false) →
    ∃ t, step s = .next t ∧ t.pc = s.pc ∧ t.v = s.v ∧ t.running ∧
      t.dt.toNat = s.dt.toNat - 1 ∧ t.st.toNat = s.st.toNat - 1

/-! ### Invariants and whole-machine rules -/

/-- The canonical form of memory is kept by every step, from every state that has it. The form says nothing
of what memory holds: every content has one memory of this form (Laws/Memory.lean, `exists_wf_reads` and
`ext_of_read`), so of a faulted state, too, it claims nothing that R263 forbids. -/
def Obligations.MemoryStaysCanonical : Prop :=
  ∀ (s : State) t, s.mem.wf → step s = .next t → t.mem.wf

/-- R36: from every state within the bound, a step that leaves the machine Running leaves `PC` and the
stack within it. -/
def Obligations.PcStaysBounded : Prop :=
  ∀ (s : State) t, s.pcBounded → step s = .next t → t.running → t.pcBounded

/-- R45, R261: a cause is recorded exactly when the machine has halted, and every step keeps that. -/
def Obligations.CauseAgreesWithHalted : Prop :=
  ∀ (s : State) t, s.causeAgrees → step s = .next t → t.causeAgrees

/-- R261, R268: `Halted` is never cleared, and a first cause is never overwritten. -/
def Obligations.HaltedIsTerminal : Prop :=
  ∀ (s : State) t, step s = .next t →
    (s.halted = true → t.halted = true) ∧ (∀ c, s.cause = some c → t.cause = some c)

/-- R233: the display-index fault never arises. -/
def Obligations.DisplayBoundsUnreachable : Prop :=
  ∀ (s : State) t, step s = .next t → (∀ r c, s.cause ≠ some (.displayBounds r c)) →
    ∀ r c, t.cause ≠ some (.displayBounds r c)

/-- R50, R310: reset meets the invariants of this file. -/
def Obligations.ResetMeetsInvariants : Prop :=
  State.reset.mem.wf ∧ State.reset.pcBounded ∧ State.reset.causeAgrees ∧ State.reset.running

/-- R50: the value of every piece of state the spec names after reset with a zero-length image. -/
def Obligations.ResetValues : Prop :=
  resetValued State.reset ∧
  (∀ a, State.reset.mem.read a = if a < 0x50 then Config.font.getD a 0 else 0)

/-- R50, R300, R301: reset with an image, under any configuration and `FONT`, gives every piece of state its
reset value, the image copied verbatim to 0x200, the font below 0x050 and zero elsewhere; an image longer
than 0xE00 bytes gives no state. The values of the output ports (log 12), of the inputs and the frame
count (log 1), the configuration in State (log 4) and the canonical form of memory are the model's own. -/
def Obligations.BootLoadsImage : Prop :=
  ∀ p font image,
    (image.length > 0xE00 → State.boot p font image = none) ∧
    (image.length ≤ 0xE00 → ∃ s, State.boot p font image = some s ∧
      s = { State.reset with mem := s.mem, params := p } ∧ resetValued s ∧ s.mem.wf ∧
      (∀ a : Fin 0x50, s.mem.read a.val = font[a.val]) ∧
      (∀ a, 0x50 ≤ a → a < 0x200 → s.mem.read a = 0) ∧
      (∀ j, j < image.length → s.mem.read (0x200 + j) = image.getD j 0) ∧
      (∀ a, 0x200 + image.length ≤ a → a < 0x1000 → s.mem.read a = 0))

/-- R8: no instruction and no frame changes the configuration. That it stands in State is the model's
choice (log 4). -/
def Obligations.ParamsNeverChange : Prop :=
  (∀ i (s : State) t, exec i s = .next t → t.params = s.params) ∧ ∀ (s : State) t, step s = .next t → t.params = s.params

/-- R32, R37 to R46: each piece of state but `PC` (which every instruction writes, R34) is written by the
instructions its rule names and by no other; an instruction that does not fault leaves `Halted` and
`Cause` alone. -/
def Obligations.OnlyNamedWritersWrite : Prop :=
  ∀ i (s : State) t, exec i s = .next t → s.running → t.running →
    (∀ r, t.getV r ≠ s.getV r → writesReg i r) ∧
    (t.i ≠ s.i → (∃ a, i = .ldI a) ∨ (∃ x, i = .addIVx x) ∨ ∃ x, i = .ldFVx x) ∧
    (t.sp ≠ s.sp → (∃ a, i = .call a) ∨ i = .ret) ∧
    (t.stack ≠ s.stack → ∃ a, i = .call a) ∧
    (t.dt ≠ s.dt → ∃ x, i = .ldDtVx x) ∧
    (t.st ≠ s.st → ∃ x, i = .ldStVx x) ∧
    (t.disp ≠ s.disp → i = .cls ∨ ∃ x y n, i = .drw x y n) ∧
    (t.dirty ≠ s.dirty → i = .cls ∨ ∃ x y n, i = .drw x y n) ∧
    (t.mem ≠ s.mem → (∃ x, i = .ldBVx x) ∨ ∃ x, i = .ldMemVx x) ∧
    t.key = s.key ∧ t.halted = s.halted ∧ t.cause = s.cause

/-- R34: outside skips, jumps and the key wait, an instruction that does not fault advances `PC` by
exactly 2. -/
def Obligations.PcAdvancesByTwo : Prop :=
  ∀ i (s : State) t, exec i s = .next t → s.running → t.running →
    t.pc = s.pc + 2 ∨
    (t.pc = s.pc + 4 ∧ ((∃ x kk, i = .seImm x kk ∨ i = .sneImm x kk) ∨
      (∃ x y, i = .seReg x y ∨ i = .sneReg x y) ∨ ∃ x, i = .skp x ∨ i = .sknp x)) ∨
    (∃ a, i = .jp a ∨ i = .call a ∨ i = .jpV0 a) ∨ i = .ret ∨
    ((∃ x, i = .ldVxK x) ∧ t.pc = s.pc)

/-- R260, R261: every instruction answers a next state; it either leaves `Halted` and `Cause` alone or
halts with a recorded cause. -/
def Obligations.EveryInstructionAnswers : Prop :=
  ∀ i (s : State), ∃ t, exec i s = .next t ∧
    ((t.halted = s.halted ∧ t.cause = s.cause) ∨ (t.halted = true ∧ t.cause ≠ none))

/-- R262, R265: only the instructions and configurations of the cause table can halt a Running machine. -/
def Obligations.OnlyListedInstructionsFault : Prop :=
  ∀ i (s : State) t, exec i s = .next t → s.running → t.halted = true →
    (∃ w, i = .unrecognized w) ∨ (∃ x y n, i = .drw x y n) ∨
    (∃ x, i = .ldBVx x ∨ i = .ldMemVx x ∨ i = .ldVxMem x ∨ i = .skp x ∨ i = .sknp x) ∨
    ((∃ x, i = .addIVx x) ∧ s.params.iOverflow = .fault) ∨
    (((∃ a, i = .call a) ∨ i = .ret) ∧ s.params.stackOverflow = .fault)

/-- R44, R210, R213: the key snapshot and the frame's inputs reach no instruction but RND, SKP, SKNP and
Fx0A: any other instruction does the same whatever they are. Of an instruction that faults the statement
says only that it halts with the same cause (R263). -/
def Obligations.InputsReachOnlyTheirReaders : Prop :=
  ∀ i (s : State) t keys ins, exec i s = .next t →
    (∀ x kk, i ≠ .rnd x kk) → (∀ x, i ≠ .skp x ∧ i ≠ .sknp x ∧ i ≠ .ldVxK x) →
    ∃ u, exec i { s with key := keys, inputs := ins } = .next u ∧
      u.halted = t.halted ∧ u.cause = t.cause ∧
      (t.running → u = { t with key := keys, inputs := ins })

/-! ### Control flow -/

/-- R110, R111: SYS only advances `PC`; JP only sets it, to its 12-bit target, odd or even. -/
def Obligations.SysAndJump : Prop :=
  ∀ (s : State) nnn,
    (∃ t, exec (.sys nnn) s = .next t ∧ t.pc = s.pc + 2 ∧ onlyPc s t) ∧
    (∃ t, exec (.jp nnn) s = .next t ∧ t.pc.toNat = nnn.toNat ∧ onlyPc s t)

/-- The two instructions of `EXTRA_OPS`, whose semantics the spec takes from general knowledge ("Its
semantics are the standard CHIP-8 ones", "the standard CHIP-8 reverse subtraction"; log 21): JP V0 sets
`PC` to the unmasked sum, and SUBN writes the wrapped reverse difference, then VF. -/
def Obligations.JumpOffsetAndReverseSubtract : Prop :=
  ∀ (s : State) nnn x y,
    (∃ t, exec (.jpV0 nnn) s = .next t ∧ t.pc.toNat = nnn.toNat + (s.getV 0).toNat ∧ onlyPc s t) ∧
    (∃ t, exec (.subn x y) s = .next t ∧
      (x ≠ 0xF → (t.getV x).toNat = ((s.getV y).toNat + 256 - (s.getV x).toNat) % 256) ∧
      t.getV 0xF = flagByte (decide ((s.getV y).toNat > (s.getV x).toNat)) ∧
      otherRegsVF s t x ∧ t.pc = s.pc + 2 ∧ onlyRegsPc s t)

/-- R112: CALL pushes its own address, advances `SP` modulo 16 and jumps; every other stack entry and
all other state is unchanged. Under `STACK_OVERFLOW = fault` with SP = 15 it raises StackFault(PC). -/
def Obligations.CallPushesAndJumps : Prop :=
  ∀ (s : State) nnn,
    (s.params.stackOverflow = .wrap ∨ s.sp ≠ 15 →
      ∃ t, exec (.call nnn) s = .next t ∧ t.stackAt s.sp = s.pc ∧
        (∀ j, j ≠ s.sp → t.stackAt j = s.stackAt j) ∧
        t.sp.toNat = (s.sp.toNat + 1) % 16 ∧ t.pc.toNat = nnn.toNat ∧
        t = { s with stack := t.stack, sp := t.sp, pc := t.pc } ∧ keepsMemory s t) ∧
    (s.params.stackOverflow = .fault → s.sp = 15 →
      ∃ t, exec (.call nnn) s = .next t ∧ faultsWith s t (.stack s.pc))

/-- R113: RET retreats `SP` modulo 16 and resumes at the entry there plus 2; no entry is cleared. Under
`STACK_OVERFLOW = fault` with SP = 0 it raises StackFault(PC). -/
def Obligations.RetPopsAndResumes : Prop :=
  ∀ (s : State),
    (s.params.stackOverflow = .wrap ∨ s.sp ≠ 0 →
      ∃ t, exec .ret s = .next t ∧ t.sp.toNat = (s.sp.toNat + 15) % 16 ∧
        t.pc = s.stackAt t.sp + 2 ∧ t = { s with sp := t.sp, pc := t.pc } ∧ keepsMemory s t) ∧
    (s.params.stackOverflow = .fault → s.sp = 0 →
      ∃ t, exec .ret s = .next t ∧ faultsWith s t (.stack s.pc))

/-- R112, R113: a RET right after a CALL resumes at the instruction after the CALL, with `SP` restored,
wherever the stack wraps. -/
def Obligations.CallThenRetResumes : Prop :=
  ∀ (s : State) nnn t, s.params.stackOverflow = .wrap → exec (.call nnn) s = .next t →
    ∃ u, exec .ret t = .next u ∧ u.pc = s.pc + 2 ∧ u.sp = s.sp

/-! ### Register and immediate transfer -/

/-- R130, R131, R133: the destination gets the value, VF is not written as a flag, and nothing but it
and `PC` changes. -/
def Obligations.RegisterTransfers : Prop :=
  ∀ (s : State) x y kk,
    (∃ t, exec (.ldImm x kk) s = .next t ∧ t.getV x = kk ∧ otherRegs s t x ∧ t.pc = s.pc + 2 ∧
      onlyRegsPc s t) ∧
    (∃ t, exec (.ldReg x y) s = .next t ∧ t.getV x = s.getV y ∧ otherRegs s t x ∧ t.pc = s.pc + 2 ∧
      onlyRegsPc s t) ∧
    (∃ t, exec (.addImm x kk) s = .next t ∧ (t.getV x).toNat = ((s.getV x).toNat + kk.toNat) % 256 ∧
      otherRegs s t x ∧ t.pc = s.pc + 2 ∧ onlyRegsPc s t)

/-- R132, R193: `I` is replaced whole by the address, or by the register's value times 5, unmasked. -/
def Obligations.IndexLoads : Prop :=
  ∀ (s : State),
    (∀ nnn, ∃ t, exec (.ldI nnn) s = .next t ∧ t.i.toNat = nnn.toNat ∧ t.pc = s.pc + 2 ∧ onlyIndexPc s t) ∧
    (∀ x, ∃ t, exec (.ldFVx x) s = .next t ∧ t.i.toNat = (s.getV x).toNat * 5 ∧ t.pc = s.pc + 2 ∧
      onlyIndexPc s t)

/-! ### Arithmetic -/

/-- R152, R153, R154: the bitwise operations, bit by bit, with no flag. -/
def Obligations.BitwiseOperations : Prop :=
  ∀ (s : State) x y,
    (∃ t, exec (.orReg x y) s = .next t ∧
      (∀ k, (t.getV x).getLsbD k = ((s.getV x).getLsbD k || (s.getV y).getLsbD k)) ∧
      otherRegs s t x ∧ t.pc = s.pc + 2 ∧ onlyRegsPc s t) ∧
    (∃ t, exec (.andReg x y) s = .next t ∧
      (∀ k, (t.getV x).getLsbD k = ((s.getV x).getLsbD k && (s.getV y).getLsbD k)) ∧
      otherRegs s t x ∧ t.pc = s.pc + 2 ∧ onlyRegsPc s t) ∧
    (∃ t, exec (.xorReg x y) s = .next t ∧
      (∀ k, (t.getV x).getLsbD k = ((s.getV x).getLsbD k ^^ (s.getV y).getLsbD k)) ∧
      otherRegs s t x ∧ t.pc = s.pc + 2 ∧ onlyRegsPc s t)

/-- R155, R150: the wrapped sum, then VF the carry. With `x` = F, VF ends as the carry. -/
def Obligations.AddSetsCarry : Prop :=
  ∀ (s : State) x y, ∃ t, exec (.addReg x y) s = .next t ∧
    (x ≠ 0xF → (t.getV x).toNat = ((s.getV x).toNat + (s.getV y).toNat) % 256) ∧
    t.getV 0xF = flagByte (decide ((s.getV x).toNat + (s.getV y).toNat > 255)) ∧
    otherRegsVF s t x ∧ t.pc = s.pc + 2 ∧ onlyRegsPc s t

/-- R156, R150: the wrapped difference, then VF 1 exactly when the minuend strictly exceeds the
subtrahend. With `x` = F, VF ends as the flag. -/
def Obligations.SubtractSetsExceeds : Prop :=
  ∀ (s : State) x y, ∃ t, exec (.sub x y) s = .next t ∧
    (x ≠ 0xF → (t.getV x).toNat = ((s.getV x).toNat + 256 - (s.getV y).toNat) % 256) ∧
    t.getV 0xF = flagByte (decide ((s.getV x).toNat > (s.getV y).toNat)) ∧
    otherRegsVF s t x ∧ t.pc = s.pc + 2 ∧ onlyRegsPc s t

/-- R157, R150: SHR halves Vx and always leaves VF = 0 (the spec's own inference: "`r ≤ 127`, so
`r[7] = 0`"); the encoded `y` does not matter. -/
def Obligations.ShrClearsFlag : Prop :=
  ∀ (s : State) x y, ∃ t, exec (.shr x y) s = .next t ∧
    (x ≠ 0xF → (t.getV x).toNat = (s.getV x).toNat / 2) ∧ t.getV 0xF = 0 ∧
    otherRegsVF s t x ∧ t.pc = s.pc + 2 ∧ onlyRegsPc s t

/-- R158, R150: SHL doubles Vx modulo 256 and leaves VF = bit 6 of the old Vx, the high bit of the
post-shift value (the spec's own inference: "It equals bit 6 of the old `V[x]`"); the encoded `y` does
not matter. -/
def Obligations.ShlSetsPostShiftBit : Prop :=
  ∀ (s : State) x y, ∃ t, exec (.shl x y) s = .next t ∧
    (x ≠ 0xF → (t.getV x).toNat = (s.getV x).toNat * 2 % 256) ∧
    t.getV 0xF = flagByte ((s.getV x).getLsbD 6) ∧
    otherRegsVF s t x ∧ t.pc = s.pc + 2 ∧ onlyRegsPc s t

/-! ### Skips -/

/-- R180 to R184: `PC` advances by 4 exactly when the condition holds, else by 2, and nothing else
changes. -/
def Obligations.ConditionalSkips : Prop :=
  ∀ (s : State) x y kk,
    (∃ t, exec (.seImm x kk) s = .next t ∧ t.pc = (if s.getV x = kk then s.pc + 4 else s.pc + 2) ∧
      onlyPc s t) ∧
    (∃ t, exec (.sneImm x kk) s = .next t ∧ t.pc = (if s.getV x ≠ kk then s.pc + 4 else s.pc + 2) ∧
      onlyPc s t) ∧
    (∃ t, exec (.seReg x y) s = .next t ∧ t.pc = (if s.getV x = s.getV y then s.pc + 4 else s.pc + 2) ∧
      onlyPc s t) ∧
    (∃ t, exec (.sneReg x y) s = .next t ∧ t.pc = (if s.getV x ≠ s.getV y then s.pc + 4 else s.pc + 2) ∧
      onlyPc s t)

/-! ### Memory block transfer and index manipulation -/

/-- R190: V0 to Vx inclusive are stored at I to I + x; every other byte reads as before and `I` is
unchanged. -/
def Obligations.StoreRegisters : Prop :=
  ∀ (s : State) x, s.mem.wf → s.i.toNat + x.val ≤ 0xFFF →
    ∃ t, exec (.ldMemVx x) s = .next t ∧
      (∀ r : RegIdx, r ≤ x → t.mem.read (s.i.toNat + r.val) = s.getV r) ∧
      (∀ a, a < s.i.toNat ∨ s.i.toNat + x.val < a → t.mem.read a = s.mem.read a) ∧
      t.pc = s.pc + 2 ∧ t = { s with mem := t.mem, pc := t.pc }

/-- R191: V0 to Vx inclusive are loaded from I to I + x; every other register, `I` and memory are
unchanged. -/
def Obligations.LoadRegisters : Prop :=
  ∀ (s : State) x, s.i.toNat + x.val ≤ 0xFFF →
    ∃ t, exec (.ldVxMem x) s = .next t ∧
      (∀ r : RegIdx, r ≤ x → t.getV r = s.mem.read (s.i.toNat + r.val)) ∧
      (∀ r : RegIdx, x < r → t.getV r = s.getV r) ∧ t.pc = s.pc + 2 ∧ onlyRegsPc s t

/-- R192: `I` gets the exact sum when it fits 16 bits, and the sum modulo 0x10000 under `wrap16`; VF and
every other register are unchanged. A greater sum under `I_OVERFLOW = fault` raises
IndexOverflowFault with the exact sum. -/
def Obligations.IndexAddition : Prop :=
  ∀ (s : State) x,
    (s.i.toNat + (s.getV x).toNat ≤ 0xFFFF ∨ s.params.iOverflow = .wrap16 →
      ∃ t, exec (.addIVx x) s = .next t ∧
        t.i.toNat = (s.i.toNat + (s.getV x).toNat) % 0x10000 ∧ t.pc = s.pc + 2 ∧ onlyIndexPc s t) ∧
    (s.params.iOverflow = .fault → s.i.toNat + (s.getV x).toNat > 0xFFFF →
      ∃ t, exec (.addIVx x) s = .next t ∧
        faultsWith s t (.indexOverflow (s.i.toNat + (s.getV x).toNat)))

/-- R194: the hundreds, tens and ones digits are stored at I, I + 1, I + 2; each is at most 9, every
other byte reads as before and `I` is unchanged. -/
def Obligations.StoreDecimalDigits : Prop :=
  ∀ (s : State) x, s.mem.wf → s.i.toNat + 2 ≤ 0xFFF →
    ∃ t, exec (.ldBVx x) s = .next t ∧
      (t.mem.read s.i.toNat).toNat = (s.getV x).toNat / 100 ∧
      (t.mem.read (s.i.toNat + 1)).toNat = (s.getV x).toNat / 10 % 10 ∧
      (t.mem.read (s.i.toNat + 2)).toNat = (s.getV x).toNat % 10 ∧
      (t.mem.read s.i.toNat).toNat * 100 + (t.mem.read (s.i.toNat + 1)).toNat * 10 +
        (t.mem.read (s.i.toNat + 2)).toNat = (s.getV x).toNat ∧
      (∀ a, a < s.i.toNat ∨ s.i.toNat + 2 < a → t.mem.read a = s.mem.read a) ∧
      t.pc = s.pc + 2 ∧ t = { s with mem := t.mem, pc := t.pc }

/-- R190, R191, R194, R231, R262: an access that would leave the 4096 bytes raises BoundsFault with the
address of the rule's pseudocode, and the first address out of range is recorded beside it. That the
cause holds both is the model's choice (log 10). -/
def Obligations.DataOutOfRangeFaults : Prop :=
  ∀ (s : State),
    (∀ x, s.i.toNat + x.val > 0xFFF →
      (∃ t, exec (.ldMemVx x) s = .next t ∧ boundsFaults s t s.i.toNat (s.i.toNat + x.val)) ∧
      (∃ t, exec (.ldVxMem x) s = .next t ∧ boundsFaults s t s.i.toNat (s.i.toNat + x.val))) ∧
    (∀ x, s.i.toNat + 2 > 0xFFF →
      ∃ t, exec (.ldBVx x) s = .next t ∧ boundsFaults s t s.i.toNat (s.i.toNat + 2)) ∧
    (∀ x y n, ¬ spriteFits s n →
      ∃ t, exec (.drw x y n) s = .next t ∧ boundsFaults s t s.i.toNat (s.i.toNat + n.val - 1))

/-- R71, R306: bytes stored by Fx55 are what a fetch from their addresses reads next. -/
def Obligations.StoredBytesAreFetched : Prop :=
  ∀ (s : State) x t, s.mem.wf → s.i.toNat + x.val ≤ 0xFFF → exec (.ldMemVx x) s = .next t →
    ∀ r q : RegIdx, q.val = r.val + 1 → q ≤ x → t.pc.toNat = s.i.toNat + r.val →
      t.fetch = .ok (wordOfBytes (s.getV r) (s.getV q))

/-! ### Randomness, input, timers -/

/-- R210: Vx gets a byte of 0 to 254 masked with `kk`, and every such byte can be drawn. -/
def Obligations.RandomByteIsFree : Prop :=
  ∀ (s : State) x kk,
    (∃ t, ∃ r : Nat, r ≤ 254 ∧ exec (.rnd x kk) s = .next t ∧ t.getV x = BitVec.ofNat 8 r &&& kk ∧
      otherRegs s t x ∧ t.pc = s.pc + 2 ∧ onlyRegsPc s t) ∧
    (∀ r : Nat, r ≤ 254 → ∃ ins t, exec (.rnd x kk) { s with inputs := ins } = .next t ∧
      t.getV x = BitVec.ofNat 8 r &&& kk)

/-- R211, R212: the key skips, for a register that holds a key value; a register above 15 raises
KeyIndexFault with its value. -/
def Obligations.KeySkips : Prop :=
  ∀ (s : State) x,
    (∀ k : Fin 16, (s.getV x).toNat = k.val →
      (∃ t, exec (.skp x) s = .next t ∧
        t.pc = (if s.key[k.val] = true then s.pc + 4 else s.pc + 2) ∧ onlyPc s t) ∧
      (∃ t, exec (.sknp x) s = .next t ∧
        t.pc = (if s.key[k.val] = true then s.pc + 2 else s.pc + 4) ∧ onlyPc s t)) ∧
    ((s.getV x).toNat > 15 →
      (∃ t, exec (.skp x) s = .next t ∧ faultsWith s t (.keyIndex (s.getV x))) ∧
      (∃ t, exec (.sknp x) s = .next t ∧ faultsWith s t (.keyIndex (s.getV x))))

/-- R213: with no key down Fx0A changes nothing; otherwise Vx gets a key that is down, the lowest under
`KEY_PICK = lowest`, and under `KEY_PICK = any` every key that is down can be the one. -/
def Obligations.KeyWaitStoresAKeyDown : Prop :=
  ∀ (s : State) x,
    ((∀ k : Fin 16, s.key[k.val] = false) → exec (.ldVxK x) s = .next s) ∧
    ((∃ k : Fin 16, s.key[k.val] = true) →
      ∃ t, ∃ k : Fin 16, exec (.ldVxK x) s = .next t ∧ s.key[k.val] = true ∧
        (s.params.keyPick = .lowest → ∀ j : Fin 16, s.key[j.val] = true → k ≤ j) ∧
        (t.getV x).toNat = k.val ∧ otherRegs s t x ∧ t.pc = s.pc + 2 ∧ onlyRegsPc s t) ∧
    (∀ k : Fin 16, s.params.keyPick = .any → s.key[k.val] = true →
      ∃ ins t, exec (.ldVxK x) { s with inputs := ins } = .next t ∧ (t.getV x).toNat = k.val)

/-- R214, R215, R216: the timer moves. -/
def Obligations.TimerMoves : Prop :=
  ∀ (s : State) x,
    (∃ t, exec (.ldVxDt x) s = .next t ∧ t.getV x = s.dt ∧ otherRegs s t x ∧ t.pc = s.pc + 2 ∧
      onlyRegsPc s t) ∧
    (∃ t, exec (.ldDtVx x) s = .next t ∧ t.dt = s.getV x ∧ t.pc = s.pc + 2 ∧
      t = { s with dt := t.dt, pc := t.pc } ∧ keepsMemory s t) ∧
    (∃ t, exec (.ldStVx x) s = .next t ∧ t.st = s.getV x ∧ t.pc = s.pc + 2 ∧
      t = { s with st := t.st, pc := t.pc } ∧ keepsMemory s t)

/-! ### Display and the unrecognized variant -/

/-- R230: CLS clears every cell, marks the display dirty under `CLS_DIRTY`, and changes nothing else. -/
def Obligations.ClearDisplay : Prop :=
  ∀ (s : State), ∃ t, exec .cls s = .next t ∧ (∀ r c, t.disp.cell r c = false) ∧
    t.dirty = (s.dirty || s.params.clsDirty) ∧ t.pc = s.pc + 2 ∧
    t = { s with disp := t.disp, dirty := t.dirty, pc := t.pc } ∧ keepsMemory s t

/-- R231, R232: DRW XORs every cell with the sprite's pixel on it, VF ends 1 exactly when a set cell was
turned off, the display is dirty, and nothing else changes. -/
def Obligations.DrawXorsSprite : Prop :=
  ∀ (s : State) x y n, spriteFits s n →
    ∃ t, exec (.drw x y n) s = .next t ∧
      (∀ r c, t.disp.cell r c = (s.disp.cell r c ^^ drawsOn s x y n r c)) ∧
      (t.getV 0xF = 1 ∨ t.getV 0xF = 0) ∧
      (t.getV 0xF = 1 ↔ ∃ r c, drawsOn s x y n r c = true ∧ s.disp.cell r c = true) ∧
      otherRegs s t 0xF ∧ t.dirty = true ∧ t.pc = s.pc + 2 ∧
      t = { s with v := t.v, disp := t.disp, dirty := t.dirty, pc := t.pc } ∧ keepsMemory s t

/-- R234, by R231: the same draw twice, with neither coordinate register VF, restores the display. VF
ends 1 exactly when the second draw turns a set pixel off, that is when some pixel of the sprite lies on
a cell that was 0 before; where no cell under the sprite was set, that is when the sprite has a set bit.
R234 says the last of every display, which R231 does not give (log 26). -/
def Obligations.DrawTwiceRestores : Prop :=
  ∀ (s : State) x y n t u, x ≠ 0xF → y ≠ 0xF → spriteFits s n →
    exec (.drw x y n) s = .next t → exec (.drw x y n) t = .next u →
    u.disp = s.disp ∧
      (u.getV 0xF = 1 ↔ ∃ r c, drawsOn s x y n r c = true ∧ s.disp.cell r c = false) ∧
      ((∀ r c, drawsOn s x y n r c = true → s.disp.cell r c = false) →
        (u.getV 0xF = 1 ↔ ∃ k, k < n.val ∧ s.mem.read (s.i.toNat + k) ≠ 0))

/-- R250: UNRECOGNIZED(w) raises UnrecognizedFault(w). -/
def Obligations.UnrecognizedFaults : Prop :=
  ∀ (s : State) w, ∃ t, exec (.unrecognized w) s = .next t ∧ faultsWith s t (.unrecognized w)
end

