-- ==== Sys2Proof/Laws/Decode.lean ====
section
/-! SUPPORT. The fields of a word as numbers (spec R81), the fields of the three word shapes, and the
byte order (R60). -/

namespace Sys2Proof

/-! ### Fields as numbers -/

theorem opField_toNat (w : Word) : (opField w).toNat = w.toNat / 4096 := by
  have := w.isLt
  rw [opField, BitVec.extractLsb'_toNat, Nat.shiftRight_eq_div_pow]; omega

theorem xField_val (w : Word) : (xField w).val = w.toNat / 256 % 16 := by
  change (w.extractLsb' 8 4).toNat = _
  rw [BitVec.extractLsb'_toNat, Nat.shiftRight_eq_div_pow]

theorem yField_val (w : Word) : (yField w).val = w.toNat / 16 % 16 := by
  change (w.extractLsb' 4 4).toNat = _
  rw [BitVec.extractLsb'_toNat, Nat.shiftRight_eq_div_pow]

theorem nField_val (w : Word) : (nField w).val = w.toNat % 16 := by
  change (w.extractLsb' 0 4).toNat = _
  rw [BitVec.extractLsb'_toNat, Nat.shiftRight_eq_div_pow]; simp

theorem kkField_toNat (w : Word) : (kkField w).toNat = w.toNat % 256 := by
  rw [kkField, BitVec.extractLsb'_toNat, Nat.shiftRight_eq_div_pow]; simp

theorem nnnField_toNat (w : Word) : (nnnField w).toNat = w.toNat % 4096 := by
  rw [nnnField, BitVec.extractLsb'_toNat, Nat.shiftRight_eq_div_pow]; simp

/-! ### Word shapes as numbers -/

theorem wordN_toNat (op : BitVec 4) (nnn : Addr12) :
    (wordN op nnn).toNat = op.toNat * 4096 + nnn.toNat := by
  have := nnn.isLt
  rw [wordN, BitVec.toNat_append, ← Nat.shiftLeft_add_eq_or_of_lt this, Nat.shiftLeft_eq]

theorem wordXK_toNat (op : BitVec 4) (x : RegIdx) (kk : Byte) :
    (wordXK op x kk).toNat = op.toNat * 4096 + x.val * 256 + kk.toNat := by
  have := kk.isLt
  have hx := x.isLt
  have h2 : (BitVec.ofNat 4 x.val ++ kk).toNat = x.val * 256 + kk.toNat := by
    rw [BitVec.toNat_append, ← Nat.shiftLeft_add_eq_or_of_lt this, Nat.shiftLeft_eq, BitVec.toNat_ofNat,
      Nat.mod_eq_of_lt (by omega)]
  rw [wordXK, BitVec.toNat_append, ← Nat.shiftLeft_add_eq_or_of_lt (BitVec.isLt _), Nat.shiftLeft_eq, h2]
  omega

theorem wordXYN_toNat (op : BitVec 4) (x y : RegIdx) (n : Nibble) :
    (wordXYN op x y n).toNat = op.toNat * 4096 + x.val * 256 + y.val * 16 + n.val := by
  have hx := x.isLt
  have hy := y.isLt
  have hn := n.isLt
  have h1 : (BitVec.ofNat 4 y.val ++ BitVec.ofNat 4 n.val).toNat = y.val * 16 + n.val := by
    rw [BitVec.toNat_append, ← Nat.shiftLeft_add_eq_or_of_lt (BitVec.isLt _), Nat.shiftLeft_eq,
      BitVec.toNat_ofNat, BitVec.toNat_ofNat, Nat.mod_eq_of_lt (by omega), Nat.mod_eq_of_lt (by omega)]
  have h2 : (BitVec.ofNat 4 x.val ++ (BitVec.ofNat 4 y.val ++ BitVec.ofNat 4 n.val)).toNat =
      x.val * 256 + y.val * 16 + n.val := by
    rw [BitVec.toNat_append, ← Nat.shiftLeft_add_eq_or_of_lt (BitVec.isLt _), Nat.shiftLeft_eq, h1,
      BitVec.toNat_ofNat, Nat.mod_eq_of_lt (by omega)]
    omega
  rw [wordXYN, BitVec.toNat_append, ← Nat.shiftLeft_add_eq_or_of_lt (BitVec.isLt _), Nat.shiftLeft_eq, h2]
  omega

/-! ### The fields of the word shapes -/

@[simp] theorem opField_wordN (op : BitVec 4) (nnn : Addr12) : opField (wordN op nnn) = op := by
  apply BitVec.eq_of_toNat_eq
  have := nnn.isLt; have := op.isLt
  rw [opField_toNat, wordN_toNat]; omega

@[simp] theorem nnnField_wordN (op : BitVec 4) (nnn : Addr12) : nnnField (wordN op nnn) = nnn := by
  apply BitVec.eq_of_toNat_eq
  have := nnn.isLt
  rw [nnnField_toNat, wordN_toNat]; omega

@[simp] theorem opField_wordXK (op : BitVec 4) (x : RegIdx) (kk : Byte) : opField (wordXK op x kk) = op := by
  apply BitVec.eq_of_toNat_eq
  have := kk.isLt; have := x.isLt; have := op.isLt
  rw [opField_toNat, wordXK_toNat]; omega

@[simp] theorem xField_wordXK (op : BitVec 4) (x : RegIdx) (kk : Byte) : xField (wordXK op x kk) = x := by
  apply Fin.ext
  have := kk.isLt; have := x.isLt
  rw [xField_val, wordXK_toNat]; omega

@[simp] theorem kkField_wordXK (op : BitVec 4) (x : RegIdx) (kk : Byte) : kkField (wordXK op x kk) = kk := by
  apply BitVec.eq_of_toNat_eq
  have := kk.isLt
  rw [kkField_toNat, wordXK_toNat]; omega

@[simp] theorem opField_wordXYN (op : BitVec 4) (x y : RegIdx) (n : Nibble) :
    opField (wordXYN op x y n) = op := by
  apply BitVec.eq_of_toNat_eq
  have := x.isLt; have := y.isLt; have := n.isLt; have := op.isLt
  rw [opField_toNat, wordXYN_toNat]; omega

@[simp] theorem xField_wordXYN (op : BitVec 4) (x y : RegIdx) (n : Nibble) :
    xField (wordXYN op x y n) = x := by
  apply Fin.ext
  have := x.isLt; have := y.isLt; have := n.isLt
  rw [xField_val, wordXYN_toNat]; omega

@[simp] theorem yField_wordXYN (op : BitVec 4) (x y : RegIdx) (n : Nibble) :
    yField (wordXYN op x y n) = y := by
  apply Fin.ext
  have := x.isLt; have := y.isLt; have := n.isLt
  rw [yField_val, wordXYN_toNat]; omega

@[simp] theorem nField_wordXYN (op : BitVec 4) (x y : RegIdx) (n : Nibble) :
    nField (wordXYN op x y n) = n := by
  apply Fin.ext
  have := x.isLt; have := y.isLt; have := n.isLt
  rw [nField_val, wordXYN_toNat]; omega

/-! ### Bytes -/

/-- The two bytes of a word, read back in address order, are the word (R60). -/
@[simp] theorem wordOfBytes_bytesOfWord (w : Word) :
    wordOfBytes (bytesOfWord w).1 (bytesOfWord w).2 = w := by
  apply BitVec.eq_of_toNat_eq
  have := w.isLt
  rw [wordOfBytes, bytesOfWord, BitVec.toNat_append,
    ← Nat.shiftLeft_add_eq_or_of_lt (BitVec.isLt _), Nat.shiftLeft_eq, BitVec.extractLsb'_toNat,
    BitVec.extractLsb'_toNat, Nat.shiftRight_eq_div_pow, Nat.shiftRight_eq_div_pow]
  omega

/-- `w = {hi, lo}`: the byte at the lower address is `w[15:8]` (R60). -/
theorem wordOfBytes_toNat (hi lo : Byte) : (wordOfBytes hi lo).toNat = hi.toNat * 256 + lo.toNat := by
  rw [wordOfBytes, BitVec.toNat_append, ← Nat.shiftLeft_add_eq_or_of_lt lo.isLt, Nat.shiftLeft_eq]

end Sys2Proof
end

