-- ==== Sys2Proof/Laws/Display.lean ====
section
/-! SUPPORT. What a draw does to each cell, in closed form (spec R231): the cell is XORed with the
sprite's pixel on it, and the collision says whether a set cell was turned off. -/

namespace Sys2Proof.Machine

theorem Display.cell_blank (r : Fin 32) (c : Fin 64) : Display.blank.cell r c = false := by
  simp [Display.cell, Display.blank]

theorem Display.cell_flip (d : Display) (r r' : Fin 32) (c c' : Fin 64) :
    (d.flip r c).cell r' c' = if r = r' ∧ c = c' then !d.cell r c else d.cell r' c' := by
  by_cases hr : r = r'
  · subst hr
    by_cases hc : c = c'
    · subst hc; simp [Display.cell, Display.flip]
    · have : c.val ≠ c'.val := fun h => hc (Fin.ext h)
      simp [Display.cell, Display.flip, hc, this]
  · have : r.val ≠ r'.val := fun h => hr (Fin.ext h)
    simp [Display.cell, Display.flip, hr, this]

/-- Displays with the same cells are equal. -/
theorem Display.ext_cell {d e : Display} (h : ∀ r c, d.cell r c = e.cell r c) : d = e := by
  apply Vector.ext
  intro r hr
  apply Vector.ext
  intro c hc
  exact h ⟨r, hr⟩ ⟨c, hc⟩

/-! ### One sprite byte -/

/-- Column `c` counted from the sprite's left edge `cx`, around the right edge. -/
def colOffset (cx : Nat) (c : Fin 64) : Nat := (c.val + 64 - cx % 64) % 64

/-- Row `r` counted from the sprite's top edge `cy`, around the bottom edge. -/
def rowOffset (cy : Nat) (r : Fin 32) : Nat := (r.val + 32 - cy % 32) % 32

theorem spritePixel_eq (cx cy : Nat) (bs : List Byte) (r : Fin 32) (c : Fin 64) :
    spritePixel cx cy bs r c =
      (decide (rowOffset cy r < bs.length) && decide (colOffset cx c < 8) &&
        (bs.getD (rowOffset cy r) 0).getLsbD (7 - colOffset cx c)) := rfl

theorem wrapCol_eq_iff (cx : Nat) (c : Fin 64) (k : Nat) (hk : k < 64) :
    wrapCol (cx + k) = c ↔ colOffset cx c = k := by
  have := c.isLt
  rw [Fin.ext_iff, colOffset]; change (cx + k) % 64 = _ ↔ _
  omega

theorem wrapRow_eq_iff (cy : Nat) (r : Fin 32) : wrapRow cy = r ↔ rowOffset cy r = 0 := by
  have := r.isLt
  rw [Fin.ext_iff, rowOffset]; change cy % 32 = _ ↔ _
  omega

/-- The pixels of the columns before `k` of one sprite byte. -/
theorem drawPixels_cell (r : Fin 32) (cx : Nat) (b : Byte) (p : Display × Bool) (k : Nat) (hk : k ≤ 8)
    (r' : Fin 32) (c : Fin 64) :
    ((List.range k).foldl (drawPixel r cx b) p).1.cell r' c =
      (p.1.cell r' c ^^ (decide (r = r') && decide (colOffset cx c < k) && b.getLsbD (7 - colOffset cx c))) := by
  induction k with
  | zero => simp
  | succ k ih =>
    rw [List.range_succ, List.foldl_append, List.foldl_cons, List.foldl_nil]
    generalize hq : (List.range k).foldl (drawPixel r cx b) p = q at ih ⊢
    have ih := ih (by omega)
    unfold drawPixel
    have hc := wrapCol_eq_iff cx c k (by omega)
    by_cases hb : b.getLsbD (7 - k) = true
    · rw [if_pos hb]
      simp only [Display.cell_flip]
      by_cases h : r = r' ∧ wrapCol (cx + k) = c
      · obtain ⟨rfl, h2⟩ := h
        have h3 := hc.1 h2
        rw [if_pos ⟨rfl, h2⟩, h2, ih, h3]
        simp [hb]
      · rw [if_neg h, ih]
        by_cases hr : r = r'
        · have h3 : colOffset cx c ≠ k := fun h3 => h ⟨hr, hc.2 h3⟩
          have : (colOffset cx c < k + 1) ↔ (colOffset cx c < k) := by omega
          simp [this]
        · simp [hr]
    · rw [if_neg hb, ih]
      by_cases h3 : colOffset cx c = k
      · simp [h3, hb]
      · have : (colOffset cx c < k + 1) ↔ (colOffset cx c < k) := by omega
        simp [this]

/-- The collision of the columns before `k` of one sprite byte. -/
theorem drawPixels_collision (r : Fin 32) (cx : Nat) (b : Byte) (p : Display × Bool) (k : Nat) (hk : k ≤ 8) :
    ((List.range k).foldl (drawPixel r cx b) p).2 = true ↔
      p.2 = true ∨ ∃ c : Fin 64, colOffset cx c < k ∧ b.getLsbD (7 - colOffset cx c) = true ∧
        p.1.cell r c = true := by
  induction k with
  | zero => simp
  | succ k ih =>
    rw [List.range_succ, List.foldl_append, List.foldl_cons, List.foldl_nil]
    have hcell := drawPixels_cell r cx b p k (by omega) r (wrapCol (cx + k))
    have hoff : colOffset cx (wrapCol (cx + k)) = k := (wrapCol_eq_iff cx _ k (by omega)).1 rfl
    generalize hq : (List.range k).foldl (drawPixel r cx b) p = q at ih hcell ⊢
    have ih := ih (by omega)
    unfold drawPixel
    by_cases hb : b.getLsbD (7 - k) = true
    · rw [if_pos hb]
      simp only [Bool.or_eq_true, ih]
      rw [hcell, hoff]
      simp only [Nat.lt_irrefl, decide_false, Bool.and_false, Bool.false_and, Bool.xor_false]
      constructor
      · rintro ((h | ⟨c, h1, h2, h3⟩) | h)
        · exact .inl h
        · exact .inr ⟨c, by omega, h2, h3⟩
        · exact .inr ⟨_, by omega, by rw [hoff]; exact hb, h⟩
      · rintro (h | ⟨c, h1, h2, h3⟩)
        · exact .inl (.inl h)
        · by_cases hk' : colOffset cx c = k
          · rw [← (wrapCol_eq_iff cx c k (by omega)).2 hk'] at h3
            exact .inr h3
          · exact .inl (.inr ⟨c, by omega, h2, h3⟩)
    · rw [if_neg hb, ih]
      constructor
      · rintro (h | ⟨c, h1, h2, h3⟩)
        · exact .inl h
        · exact .inr ⟨c, by omega, h2, h3⟩
      · rintro (h | ⟨c, h1, h2, h3⟩)
        · exact .inl h
        · by_cases hk' : colOffset cx c = k
          · rw [hk'] at h2; exact absurd h2 hb
          · exact .inr ⟨c, by omega, h2, h3⟩

/-! ### The whole sprite -/

theorem spritePixel_cons (cx cy : Nat) (b : Byte) (bs : List Byte) (r : Fin 32)
    (c : Fin 64) :
    spritePixel cx cy (b :: bs) r c =
      if rowOffset cy r = 0 then decide (colOffset cx c < 8) && b.getLsbD (7 - colOffset cx c)
      else spritePixel cx (cy + 1) bs r c := by
  rw [spritePixel_eq, spritePixel_eq]
  by_cases h : rowOffset cy r = 0
  · simp [h]
  · have hr := r.isLt
    have hsucc : rowOffset cy r = rowOffset (cy + 1) r + 1 := by
      unfold rowOffset at h ⊢; omega
    rw [if_neg h, hsucc]
    simp

theorem spritePixel_top_row_of_tail (cx cy : Nat) (bs : List Byte) (hl : bs.length < 32) (r : Fin 32)
    (c : Fin 64) (h : rowOffset cy r = 0) : spritePixel cx (cy + 1) bs r c = false := by
  have hr := r.isLt
  have : rowOffset (cy + 1) r = 31 := by unfold rowOffset at h ⊢; omega
  rw [spritePixel_eq, this, decide_eq_false (by omega)]
  rfl

/-- Every cell after a draw: XORed with the sprite's pixel on it. -/
theorem drawSprite_cell (cx cy : Nat) (bs : List Byte) (hl : bs.length ≤ 32) (p : Display × Bool)
    (r : Fin 32) (c : Fin 64) :
    (drawSprite cx p cy bs).1.cell r c = (p.1.cell r c ^^ spritePixel cx cy bs r c) := by
  induction bs generalizing p cy with
  | nil => simp [drawSprite, spritePixel]
  | cons b bs ih =>
    simp only [List.length_cons] at hl
    rw [drawSprite, ih (cy + 1) (by omega), drawByte, drawPixels_cell _ _ _ _ 8 (by omega),
      spritePixel_cons cx cy b bs]
    have h0 := wrapRow_eq_iff cy r
    by_cases h : rowOffset cy r = 0
    · rw [if_pos h, spritePixel_top_row_of_tail cx cy bs (by omega) r c h]
      simp [h0.2 h]
    · rw [if_neg h]
      have : ¬ wrapRow cy = r := fun h' => h (h0.1 h')
      simp [this]

/-- The collision after a draw: some set cell has a sprite pixel on it. -/
theorem drawSprite_collision (cx cy : Nat) (bs : List Byte) (hl : bs.length ≤ 32) (p : Display × Bool) :
    (drawSprite cx p cy bs).2 = true ↔
      p.2 = true ∨ ∃ r c, spritePixel cx cy bs r c = true ∧ p.1.cell r c = true := by
  induction bs generalizing p cy with
  | nil => simp [drawSprite, spritePixel]
  | cons b bs ih =>
    simp only [List.length_cons] at hl
    rw [drawSprite, ih (cy + 1) (by omega), drawByte, drawPixels_collision _ _ _ _ 8 (by omega)]
    have h0 : rowOffset cy (wrapRow cy) = 0 := (wrapRow_eq_iff cy _).1 rfl
    simp only [drawPixels_cell _ _ _ _ 8 (Nat.le_refl 8)]
    constructor
    · rintro ((h | ⟨c, h1, h2, h3⟩) | ⟨r, c, h1, h2⟩)
      · exact .inl h
      · refine .inr ⟨_, c, ?_, h3⟩
        rw [spritePixel_cons cx cy b bs, if_pos h0]
        simp [h1, h2]
      · by_cases h : rowOffset cy r = 0
        · rw [spritePixel_top_row_of_tail cx cy bs (by omega) r c h] at h1; cases h1
        · refine .inr ⟨r, c, ?_, ?_⟩
          · rw [spritePixel_cons cx cy b bs, if_neg h]; exact h1
          · have : ¬ wrapRow cy = r := fun h' => h ((wrapRow_eq_iff cy r).1 h')
            simpa [this] using h2
    · rintro (h | ⟨r, c, h1, h2⟩)
      · exact .inl (.inl h)
      · rw [spritePixel_cons cx cy b bs] at h1
        by_cases h : rowOffset cy r = 0
        · rw [if_pos h] at h1
          simp only [Bool.and_eq_true, decide_eq_true_eq] at h1
          rw [← (wrapRow_eq_iff cy r).2 h] at h2
          exact .inl (.inr ⟨c, h1.1, h1.2, h2⟩)
        · rw [if_neg h] at h1
          have : ¬ wrapRow cy = r := fun h' => h ((wrapRow_eq_iff cy r).1 h')
          exact .inr ⟨r, c, h1, by simpa [this] using h2⟩

end Sys2Proof.Machine
end

