-- ==== Sys2Proof/Laws/Memory.lean ====
section
/-! SUPPORT. Memory: read after write, and every memory operation keeps the canonical form. -/

namespace Sys2Proof.Machine

/-! ### Lists of cells -/

/-- Addresses strictly rise. -/
abbrev Rising (cs : List Host.Cell) : Prop := cs.Pairwise (fun c d => c.1 < d.1)

theorem Memory.lookup_of_absent {a : Nat} {cs : List Host.Cell} (h : ∀ c ∈ cs, c.1 ≠ a) :
    Memory.lookup a cs = Memory.unlisted a := by
  induction cs with
  | nil => rfl
  | cons c cs ih =>
    rw [Memory.lookup, if_neg (h c (by simp)), ih (fun d hd => h d (by simp [hd]))]

theorem Memory.mem_insert {a : Nat} {b : Byte} {cs : List Host.Cell} {d : Host.Cell}
    (h : d ∈ Memory.insert a b cs) : d = (a, b) ∨ d ∈ cs := by
  induction cs with
  | nil => simpa [Memory.insert] using h
  | cons c cs ih =>
    unfold Memory.insert at h
    split at h
    · simpa using h
    · split at h
      · rcases List.mem_cons.1 h with h | h
        · exact .inl h
        · exact .inr (by simp [h])
      · rcases List.mem_cons.1 h with h | h
        · exact .inr (by simp [h])
        · rcases ih h with h | h
          · exact .inl h
          · exact .inr (by simp [h])

theorem Memory.mem_erase {a : Nat} {cs : List Host.Cell} {d : Host.Cell}
    (h : d ∈ Memory.erase a cs) : d ∈ cs := by
  induction cs with
  | nil => simp [Memory.erase] at h
  | cons c cs ih =>
    unfold Memory.erase at h
    split at h
    · simp [h]
    · rcases List.mem_cons.1 h with h | h
      · simp [h]
      · simp [ih h]

theorem Memory.insert_rising {a : Nat} {b : Byte} {cs : List Host.Cell} (h : Rising cs) :
    Rising (Memory.insert a b cs) := by
  induction cs with
  | nil => simp [Memory.insert, Rising]
  | cons c cs ih =>
    obtain ⟨h1, h2⟩ := List.pairwise_cons.1 h
    unfold Memory.insert
    split
    · refine List.pairwise_cons.2 ⟨?_, h⟩
      intro d hd
      rcases List.mem_cons.1 hd with rfl | hd
      · assumption
      · have := h1 d hd; simp only; omega
    · split
      · refine List.pairwise_cons.2 ⟨?_, h2⟩
        intro d hd; have := h1 d hd; simp only; omega
      · refine List.pairwise_cons.2 ⟨?_, ih h2⟩
        intro d hd
        rcases Memory.mem_insert hd with rfl | hd
        · simp only; omega
        · exact h1 d hd

theorem Memory.erase_rising {a : Nat} {cs : List Host.Cell} (h : Rising cs) :
    Rising (Memory.erase a cs) := by
  induction cs with
  | nil => simp [Memory.erase, Rising]
  | cons c cs ih =>
    obtain ⟨h1, h2⟩ := List.pairwise_cons.1 h
    unfold Memory.erase
    split
    · exact h2
    · exact List.pairwise_cons.2 ⟨fun d hd => h1 d (Memory.mem_erase hd), ih h2⟩

theorem Memory.lookup_insert {a a' : Nat} {b : Byte} {cs : List Host.Cell} (h : Rising cs) :
    Memory.lookup a' (Memory.insert a b cs) = if a = a' then b else Memory.lookup a' cs := by
  induction cs with
  | nil => simp [Memory.insert, Memory.lookup]
  | cons c cs ih =>
    obtain ⟨h1, h2⟩ := List.pairwise_cons.1 h
    unfold Memory.insert
    split
    · simp [Memory.lookup]
    · split
      · next _ hc => subst hc; simp only [Memory.lookup]; split <;> simp_all
      · rw [Memory.lookup, ih h2, Memory.lookup]
        split
        · rw [if_neg]; omega
        · rfl

theorem Memory.lookup_erase {a a' : Nat} {cs : List Host.Cell} (h : Rising cs) :
    Memory.lookup a' (Memory.erase a cs) =
      if a = a' then Memory.unlisted a else Memory.lookup a' cs := by
  induction cs with
  | nil => simp only [Memory.erase, Memory.lookup]; split <;> simp_all
  | cons c cs ih =>
    obtain ⟨h1, h2⟩ := List.pairwise_cons.1 h
    unfold Memory.erase
    split
    · next hc =>
      subst hc
      split
      · next ha => subst ha; exact Memory.lookup_of_absent fun d hd => by have := h1 d hd; omega
      · next ha => rw [Memory.lookup, if_neg ha]
    · next hc =>
      rw [Memory.lookup, ih h2, Memory.lookup]
      split
      · rw [if_neg]; omega
      · rfl

/-! ### The canonical form -/

theorem Memory.wf_empty : Memory.wf ⟨[]⟩ := by simp [Memory.wf]

theorem Memory.wf_write {m : Memory} (h : m.wf) (a : Nat) (b : Byte) : (m.write a b).wf := by
  unfold Memory.write
  split
  · next ha =>
    split
    · exact ⟨Memory.erase_rising h.1, fun c hc => h.2 c (Memory.mem_erase hc)⟩
    · next hb =>
      refine ⟨Memory.insert_rising h.1, fun c hc => ?_⟩
      rcases Memory.mem_insert hc with rfl | hc
      · exact ⟨ha, hb⟩
      · exact h.2 c hc
  · exact h

theorem Memory.wf_writeBytes {m : Memory} (h : m.wf) (a : Nat) (bs : List Byte) :
    (m.writeBytes a bs).wf := by
  induction bs generalizing m a with
  | nil => exact h
  | cons b bs ih => exact ih (Memory.wf_write h a b) (a + 1)

/-! ### Read after write -/

theorem Memory.read_write {m : Memory} (h : m.wf) {a : Nat} (ha : a < Config.memSize) (b : Byte) (a' : Nat) :
    (m.write a b).read a' = if a = a' then b else m.read a' := by
  unfold Memory.write
  rw [if_pos ha]
  split
  · next hb => rw [Memory.read, Memory.lookup_erase h.1, hb, Memory.read]
  · rw [Memory.read, Memory.lookup_insert h.1, Memory.read]

/-- A read after a block write: inside the block the byte written, outside it what was there. -/
theorem Memory.read_writeBytes {m : Memory} (h : m.wf) (a : Nat) (bs : List Byte)
    (hb : a + bs.length ≤ Config.memSize) (a' : Nat) :
    (m.writeBytes a bs).read a' =
      if a ≤ a' ∧ a' < a + bs.length then bs.getD (a' - a) 0 else m.read a' := by
  induction bs generalizing m a with
  | nil => simp only [Memory.writeBytes, List.length_nil]; rw [if_neg (by omega)]
  | cons b bs ih =>
    simp only [List.length_cons] at hb
    rw [Memory.writeBytes, ih (Memory.wf_write h a b) (a + 1) (by omega)]
    rw [Memory.read_write h (by omega)]
    rcases Nat.lt_trichotomy a a' with hlt | heq | hgt
    · obtain ⟨k, rfl⟩ : ∃ k, a' = a + 1 + k := ⟨a' - a - 1, by omega⟩
      have e1 : a + 1 + k - (a + 1) = k := by omega
      have e2 : a + 1 + k - a = k + 1 := by omega
      rw [e1, e2, if_neg (by omega : ¬ a = a + 1 + k)]
      simp only [List.length_cons, List.getD_cons_succ]
      by_cases hk : k < bs.length
      · rw [if_pos (by omega), if_pos (by omega)]
      · rw [if_neg (by omega), if_neg (by omega)]
    · subst heq
      rw [if_neg (by omega), if_pos rfl, if_pos (by simp)]
      simp
    · rw [if_neg (by omega), if_neg (by omega), if_neg (by omega)]

/-- The frame of a block write, with no bound on the block and no condition on the memory's size. -/
theorem Memory.read_writeBytes_outside {m : Memory} (h : m.wf) (a : Nat) (bs : List Byte) (a' : Nat)
    (ho : a' < a ∨ a + bs.length ≤ a') : (m.writeBytes a bs).read a' = m.read a' := by
  induction bs generalizing m a with
  | nil => rfl
  | cons b bs ih =>
    simp only [List.length_cons] at ho
    rw [Memory.writeBytes, ih (Memory.wf_write h a b) (a + 1) (by omega)]
    by_cases ha : a < Config.memSize
    · rw [Memory.read_write h ha, if_neg (by omega)]
    · rw [Memory.write, if_neg ha]

@[simp] theorem Memory.readBytes_length (m : Memory) (a n : Nat) : (m.readBytes a n).length = n := by
  induction n generalizing a with
  | zero => rfl
  | succ n ih => simp [Memory.readBytes, ih]

theorem Memory.readBytes_getD (m : Memory) (a n k : Nat) (h : k < n) :
    (m.readBytes a n).getD k 0 = m.read (a + k) := by
  induction n generalizing a k with
  | zero => omega
  | succ n ih =>
    cases k with
    | zero => simp [Memory.readBytes]
    | succ k =>
      rw [Memory.readBytes, List.getD_cons_succ, ih (a + 1) k (by omega)]
      congr 1; omega

/-! ### Equal memories are equal data -/

theorem Memory.lookup_eq_of_mem {cs : List Host.Cell} (h : Rising cs) {c : Host.Cell} (hc : c ∈ cs) :
    Memory.lookup c.1 cs = c.2 := by
  induction cs with
  | nil => simp at hc
  | cons d cs ih =>
    obtain ⟨h1, h2⟩ := List.pairwise_cons.1 h
    rw [Memory.lookup]
    rcases List.mem_cons.1 hc with rfl | hc
    · simp
    · rw [if_neg (by have := h1 c hc; omega), ih h2 hc]

theorem Memory.mem_cells_iff {m : Memory} (h : m.wf) (c : Host.Cell) :
    c ∈ m.cells ↔ m.read c.1 = c.2 ∧ c.2 ≠ Memory.unlisted c.1 := by
  constructor
  · intro hc
    exact ⟨Memory.lookup_eq_of_mem h.1 hc, (h.2 c hc).2⟩
  · rintro ⟨h1, h2⟩
    by_contra hn
    apply h2
    rw [← h1, Memory.read]
    by_cases he : ∃ d ∈ m.cells, d.1 = c.1
    · obtain ⟨d, hd, hdc⟩ := he
      have := Memory.lookup_eq_of_mem h.1 hd
      rw [hdc] at this
      have hcd : c.2 = d.2 := by rw [← h1, Memory.read, this]
      exact absurd (by rwa [show c = d from Prod.ext hdc.symm hcd]) hn
    · exact Memory.lookup_of_absent fun d hd hdc => he ⟨d, hd, hdc⟩

/-- Two canonical memories that read the same everywhere are the same data. -/
theorem Memory.ext_of_read {m m' : Memory} (h : m.wf) (h' : m'.wf) (hr : ∀ a, m.read a = m'.read a) :
    m = m' := by
  have hmem : ∀ c, c ∈ m.cells ↔ c ∈ m'.cells := fun c => by
    rw [Memory.mem_cells_iff h, Memory.mem_cells_iff h', hr]
  have hperm : m.cells.Perm m'.cells := by
    refine (List.perm_ext_iff_of_nodup ?_ ?_).2 hmem
    · exact h.1.imp fun {c d} hcd => by rintro rfl; omega
    · exact h'.1.imp fun {c d} hcd => by rintro rfl; omega
  have : m.cells = m'.cells := hperm.eq_of_pairwise (fun c d _ _ h1 h2 => by omega) h.1 h'.1
  cases m; cases m'; simp_all

/-- Every content of the 4096 bytes has a canonical memory: the form claims nothing of what memory holds. -/
theorem Memory.exists_wf_reads (f : Nat → Byte) :
    ∃ m : Memory, m.wf ∧ ∀ a, a < Config.memSize → m.read a = f a := by
  refine ⟨Memory.writeBytes ⟨[]⟩ 0 ((List.range Config.memSize).map f),
    Memory.wf_writeBytes Memory.wf_empty _ _, fun a ha => ?_⟩
  rw [Memory.read_writeBytes Memory.wf_empty _ _ (by simp), if_pos (by simpa using ha)]
  simp [List.getD_eq_getElem?_getD, ha]

end Sys2Proof.Machine
end

