-- ==== Sys2Proof/Laws/State.lean ====
section
/-! SUPPORT. One lemma per field per update of the state: what each named operation leaves alone and
what it writes, so that no proof unfolds a record update. -/

namespace Sys2Proof.Machine

/-! ### setV -/

@[simp] theorem State.setV_i (s : State) (x : RegIdx) (b : Byte) : (s.setV x b).i = s.i := rfl
@[simp] theorem State.setV_pc (s : State) (x : RegIdx) (b : Byte) : (s.setV x b).pc = s.pc := rfl
@[simp] theorem State.setV_sp (s : State) (x : RegIdx) (b : Byte) : (s.setV x b).sp = s.sp := rfl
@[simp] theorem State.setV_stack (s : State) (x : RegIdx) (b : Byte) : (s.setV x b).stack = s.stack := rfl
@[simp] theorem State.setV_dt (s : State) (x : RegIdx) (b : Byte) : (s.setV x b).dt = s.dt := rfl
@[simp] theorem State.setV_st (s : State) (x : RegIdx) (b : Byte) : (s.setV x b).st = s.st := rfl
@[simp] theorem State.setV_disp (s : State) (x : RegIdx) (b : Byte) : (s.setV x b).disp = s.disp := rfl
@[simp] theorem State.setV_dirty (s : State) (x : RegIdx) (b : Byte) : (s.setV x b).dirty = s.dirty := rfl
@[simp] theorem State.setV_key (s : State) (x : RegIdx) (b : Byte) : (s.setV x b).key = s.key := rfl
@[simp] theorem State.setV_halted (s : State) (x : RegIdx) (b : Byte) : (s.setV x b).halted = s.halted := rfl
@[simp] theorem State.setV_cause (s : State) (x : RegIdx) (b : Byte) : (s.setV x b).cause = s.cause := rfl
@[simp] theorem State.setV_mem (s : State) (x : RegIdx) (b : Byte) : (s.setV x b).mem = s.mem := rfl
@[simp] theorem State.setV_renderOut (s : State) (x : RegIdx) (b : Byte) : (s.setV x b).renderOut = s.renderOut := rfl
@[simp] theorem State.setV_toneOut (s : State) (x : RegIdx) (b : Byte) : (s.setV x b).toneOut = s.toneOut := rfl
@[simp] theorem State.setV_stop (s : State) (x : RegIdx) (b : Byte) : (s.setV x b).stop = s.stop := rfl
@[simp] theorem State.setV_dumpRequest (s : State) (x : RegIdx) (b : Byte) : (s.setV x b).dumpRequest = s.dumpRequest := rfl
@[simp] theorem State.setV_params (s : State) (x : RegIdx) (b : Byte) : (s.setV x b).params = s.params := rfl
@[simp] theorem State.setV_inputs (s : State) (x : RegIdx) (b : Byte) : (s.setV x b).inputs = s.inputs := rfl
@[simp] theorem State.setV_frame (s : State) (x : RegIdx) (b : Byte) : (s.setV x b).frame = s.frame := rfl
@[simp] theorem State.setV_stackAt (s : State) (x : RegIdx) (b : Byte) (j : BitVec 4) : (s.setV x b).stackAt j = s.stackAt j := rfl
@[simp] theorem State.setV_input (s : State) (x : RegIdx) (b : Byte) : (s.setV x b).input = s.input := rfl

/-! ### setFlag -/

@[simp] theorem State.setFlag_i (s : State) (f : Bool) : (s.setFlag f).i = s.i := rfl
@[simp] theorem State.setFlag_pc (s : State) (f : Bool) : (s.setFlag f).pc = s.pc := rfl
@[simp] theorem State.setFlag_sp (s : State) (f : Bool) : (s.setFlag f).sp = s.sp := rfl
@[simp] theorem State.setFlag_stack (s : State) (f : Bool) : (s.setFlag f).stack = s.stack := rfl
@[simp] theorem State.setFlag_dt (s : State) (f : Bool) : (s.setFlag f).dt = s.dt := rfl
@[simp] theorem State.setFlag_st (s : State) (f : Bool) : (s.setFlag f).st = s.st := rfl
@[simp] theorem State.setFlag_disp (s : State) (f : Bool) : (s.setFlag f).disp = s.disp := rfl
@[simp] theorem State.setFlag_dirty (s : State) (f : Bool) : (s.setFlag f).dirty = s.dirty := rfl
@[simp] theorem State.setFlag_key (s : State) (f : Bool) : (s.setFlag f).key = s.key := rfl
@[simp] theorem State.setFlag_halted (s : State) (f : Bool) : (s.setFlag f).halted = s.halted := rfl
@[simp] theorem State.setFlag_cause (s : State) (f : Bool) : (s.setFlag f).cause = s.cause := rfl
@[simp] theorem State.setFlag_mem (s : State) (f : Bool) : (s.setFlag f).mem = s.mem := rfl
@[simp] theorem State.setFlag_renderOut (s : State) (f : Bool) : (s.setFlag f).renderOut = s.renderOut := rfl
@[simp] theorem State.setFlag_toneOut (s : State) (f : Bool) : (s.setFlag f).toneOut = s.toneOut := rfl
@[simp] theorem State.setFlag_stop (s : State) (f : Bool) : (s.setFlag f).stop = s.stop := rfl
@[simp] theorem State.setFlag_dumpRequest (s : State) (f : Bool) : (s.setFlag f).dumpRequest = s.dumpRequest := rfl
@[simp] theorem State.setFlag_params (s : State) (f : Bool) : (s.setFlag f).params = s.params := rfl
@[simp] theorem State.setFlag_inputs (s : State) (f : Bool) : (s.setFlag f).inputs = s.inputs := rfl
@[simp] theorem State.setFlag_frame (s : State) (f : Bool) : (s.setFlag f).frame = s.frame := rfl
@[simp] theorem State.setFlag_stackAt (s : State) (f : Bool) (j : BitVec 4) : (s.setFlag f).stackAt j = s.stackAt j := rfl
@[simp] theorem State.setFlag_input (s : State) (f : Bool) : (s.setFlag f).input = s.input := rfl

/-! ### loadRegs -/

@[simp] theorem State.loadRegs_i (s : State) (x : RegIdx) (a : Nat) : (s.loadRegs x a).i = s.i := rfl
@[simp] theorem State.loadRegs_pc (s : State) (x : RegIdx) (a : Nat) : (s.loadRegs x a).pc = s.pc := rfl
@[simp] theorem State.loadRegs_sp (s : State) (x : RegIdx) (a : Nat) : (s.loadRegs x a).sp = s.sp := rfl
@[simp] theorem State.loadRegs_stack (s : State) (x : RegIdx) (a : Nat) : (s.loadRegs x a).stack = s.stack := rfl
@[simp] theorem State.loadRegs_dt (s : State) (x : RegIdx) (a : Nat) : (s.loadRegs x a).dt = s.dt := rfl
@[simp] theorem State.loadRegs_st (s : State) (x : RegIdx) (a : Nat) : (s.loadRegs x a).st = s.st := rfl
@[simp] theorem State.loadRegs_disp (s : State) (x : RegIdx) (a : Nat) : (s.loadRegs x a).disp = s.disp := rfl
@[simp] theorem State.loadRegs_dirty (s : State) (x : RegIdx) (a : Nat) : (s.loadRegs x a).dirty = s.dirty := rfl
@[simp] theorem State.loadRegs_key (s : State) (x : RegIdx) (a : Nat) : (s.loadRegs x a).key = s.key := rfl
@[simp] theorem State.loadRegs_halted (s : State) (x : RegIdx) (a : Nat) : (s.loadRegs x a).halted = s.halted := rfl
@[simp] theorem State.loadRegs_cause (s : State) (x : RegIdx) (a : Nat) : (s.loadRegs x a).cause = s.cause := rfl
@[simp] theorem State.loadRegs_mem (s : State) (x : RegIdx) (a : Nat) : (s.loadRegs x a).mem = s.mem := rfl
@[simp] theorem State.loadRegs_renderOut (s : State) (x : RegIdx) (a : Nat) : (s.loadRegs x a).renderOut = s.renderOut := rfl
@[simp] theorem State.loadRegs_toneOut (s : State) (x : RegIdx) (a : Nat) : (s.loadRegs x a).toneOut = s.toneOut := rfl
@[simp] theorem State.loadRegs_stop (s : State) (x : RegIdx) (a : Nat) : (s.loadRegs x a).stop = s.stop := rfl
@[simp] theorem State.loadRegs_dumpRequest (s : State) (x : RegIdx) (a : Nat) : (s.loadRegs x a).dumpRequest = s.dumpRequest := rfl
@[simp] theorem State.loadRegs_params (s : State) (x : RegIdx) (a : Nat) : (s.loadRegs x a).params = s.params := rfl
@[simp] theorem State.loadRegs_inputs (s : State) (x : RegIdx) (a : Nat) : (s.loadRegs x a).inputs = s.inputs := rfl
@[simp] theorem State.loadRegs_frame (s : State) (x : RegIdx) (a : Nat) : (s.loadRegs x a).frame = s.frame := rfl
@[simp] theorem State.loadRegs_stackAt (s : State) (x : RegIdx) (a : Nat) (j : BitVec 4) : (s.loadRegs x a).stackAt j = s.stackAt j := rfl
@[simp] theorem State.loadRegs_input (s : State) (x : RegIdx) (a : Nat) : (s.loadRegs x a).input = s.input := rfl

/-! ### next -/

@[simp] theorem State.next_v (s : State) : s.next.v = s.v := rfl
@[simp] theorem State.next_i (s : State) : s.next.i = s.i := rfl
@[simp] theorem State.next_pc (s : State) : s.next.pc = s.pc + 2 := rfl
@[simp] theorem State.next_sp (s : State) : s.next.sp = s.sp := rfl
@[simp] theorem State.next_stack (s : State) : s.next.stack = s.stack := rfl
@[simp] theorem State.next_dt (s : State) : s.next.dt = s.dt := rfl
@[simp] theorem State.next_st (s : State) : s.next.st = s.st := rfl
@[simp] theorem State.next_disp (s : State) : s.next.disp = s.disp := rfl
@[simp] theorem State.next_dirty (s : State) : s.next.dirty = s.dirty := rfl
@[simp] theorem State.next_key (s : State) : s.next.key = s.key := rfl
@[simp] theorem State.next_halted (s : State) : s.next.halted = s.halted := rfl
@[simp] theorem State.next_cause (s : State) : s.next.cause = s.cause := rfl
@[simp] theorem State.next_mem (s : State) : s.next.mem = s.mem := rfl
@[simp] theorem State.next_renderOut (s : State) : s.next.renderOut = s.renderOut := rfl
@[simp] theorem State.next_toneOut (s : State) : s.next.toneOut = s.toneOut := rfl
@[simp] theorem State.next_stop (s : State) : s.next.stop = s.stop := rfl
@[simp] theorem State.next_dumpRequest (s : State) : s.next.dumpRequest = s.dumpRequest := rfl
@[simp] theorem State.next_params (s : State) : s.next.params = s.params := rfl
@[simp] theorem State.next_inputs (s : State) : s.next.inputs = s.inputs := rfl
@[simp] theorem State.next_frame (s : State) : s.next.frame = s.frame := rfl
@[simp] theorem State.next_getV (s : State) (r : RegIdx) : s.next.getV r = s.getV r := rfl
@[simp] theorem State.next_stackAt (s : State) (j : BitVec 4) : s.next.stackAt j = s.stackAt j := rfl
@[simp] theorem State.next_input (s : State) : s.next.input = s.input := rfl

/-! ### skipIf -/

@[simp] theorem State.skipIf_v (s : State) (c : Bool) : (s.skipIf c).v = s.v := rfl
@[simp] theorem State.skipIf_i (s : State) (c : Bool) : (s.skipIf c).i = s.i := rfl
@[simp] theorem State.skipIf_pc (s : State) (c : Bool) : (s.skipIf c).pc = if c then s.pc + 4 else s.pc + 2 := rfl
@[simp] theorem State.skipIf_sp (s : State) (c : Bool) : (s.skipIf c).sp = s.sp := rfl
@[simp] theorem State.skipIf_stack (s : State) (c : Bool) : (s.skipIf c).stack = s.stack := rfl
@[simp] theorem State.skipIf_dt (s : State) (c : Bool) : (s.skipIf c).dt = s.dt := rfl
@[simp] theorem State.skipIf_st (s : State) (c : Bool) : (s.skipIf c).st = s.st := rfl
@[simp] theorem State.skipIf_disp (s : State) (c : Bool) : (s.skipIf c).disp = s.disp := rfl
@[simp] theorem State.skipIf_dirty (s : State) (c : Bool) : (s.skipIf c).dirty = s.dirty := rfl
@[simp] theorem State.skipIf_key (s : State) (c : Bool) : (s.skipIf c).key = s.key := rfl
@[simp] theorem State.skipIf_halted (s : State) (c : Bool) : (s.skipIf c).halted = s.halted := rfl
@[simp] theorem State.skipIf_cause (s : State) (c : Bool) : (s.skipIf c).cause = s.cause := rfl
@[simp] theorem State.skipIf_mem (s : State) (c : Bool) : (s.skipIf c).mem = s.mem := rfl
@[simp] theorem State.skipIf_renderOut (s : State) (c : Bool) : (s.skipIf c).renderOut = s.renderOut := rfl
@[simp] theorem State.skipIf_toneOut (s : State) (c : Bool) : (s.skipIf c).toneOut = s.toneOut := rfl
@[simp] theorem State.skipIf_stop (s : State) (c : Bool) : (s.skipIf c).stop = s.stop := rfl
@[simp] theorem State.skipIf_dumpRequest (s : State) (c : Bool) : (s.skipIf c).dumpRequest = s.dumpRequest := rfl
@[simp] theorem State.skipIf_params (s : State) (c : Bool) : (s.skipIf c).params = s.params := rfl
@[simp] theorem State.skipIf_inputs (s : State) (c : Bool) : (s.skipIf c).inputs = s.inputs := rfl
@[simp] theorem State.skipIf_frame (s : State) (c : Bool) : (s.skipIf c).frame = s.frame := rfl
@[simp] theorem State.skipIf_getV (s : State) (c : Bool) (r : RegIdx) : (s.skipIf c).getV r = s.getV r := rfl
@[simp] theorem State.skipIf_stackAt (s : State) (c : Bool) (j : BitVec 4) : (s.skipIf c).stackAt j = s.stackAt j := rfl
@[simp] theorem State.skipIf_input (s : State) (c : Bool) : (s.skipIf c).input = s.input := rfl

/-! ### jump -/

@[simp] theorem State.jump_v (s : State) (a : Word) : (s.jump a).v = s.v := rfl
@[simp] theorem State.jump_i (s : State) (a : Word) : (s.jump a).i = s.i := rfl
@[simp] theorem State.jump_pc (s : State) (a : Word) : (s.jump a).pc = a := rfl
@[simp] theorem State.jump_sp (s : State) (a : Word) : (s.jump a).sp = s.sp := rfl
@[simp] theorem State.jump_stack (s : State) (a : Word) : (s.jump a).stack = s.stack := rfl
@[simp] theorem State.jump_dt (s : State) (a : Word) : (s.jump a).dt = s.dt := rfl
@[simp] theorem State.jump_st (s : State) (a : Word) : (s.jump a).st = s.st := rfl
@[simp] theorem State.jump_disp (s : State) (a : Word) : (s.jump a).disp = s.disp := rfl
@[simp] theorem State.jump_dirty (s : State) (a : Word) : (s.jump a).dirty = s.dirty := rfl
@[simp] theorem State.jump_key (s : State) (a : Word) : (s.jump a).key = s.key := rfl
@[simp] theorem State.jump_halted (s : State) (a : Word) : (s.jump a).halted = s.halted := rfl
@[simp] theorem State.jump_cause (s : State) (a : Word) : (s.jump a).cause = s.cause := rfl
@[simp] theorem State.jump_mem (s : State) (a : Word) : (s.jump a).mem = s.mem := rfl
@[simp] theorem State.jump_renderOut (s : State) (a : Word) : (s.jump a).renderOut = s.renderOut := rfl
@[simp] theorem State.jump_toneOut (s : State) (a : Word) : (s.jump a).toneOut = s.toneOut := rfl
@[simp] theorem State.jump_stop (s : State) (a : Word) : (s.jump a).stop = s.stop := rfl
@[simp] theorem State.jump_dumpRequest (s : State) (a : Word) : (s.jump a).dumpRequest = s.dumpRequest := rfl
@[simp] theorem State.jump_params (s : State) (a : Word) : (s.jump a).params = s.params := rfl
@[simp] theorem State.jump_inputs (s : State) (a : Word) : (s.jump a).inputs = s.inputs := rfl
@[simp] theorem State.jump_frame (s : State) (a : Word) : (s.jump a).frame = s.frame := rfl
@[simp] theorem State.jump_getV (s : State) (a : Word) (r : RegIdx) : (s.jump a).getV r = s.getV r := rfl
@[simp] theorem State.jump_stackAt (s : State) (a : Word) (j : BitVec 4) : (s.jump a).stackAt j = s.stackAt j := rfl
@[simp] theorem State.jump_input (s : State) (a : Word) : (s.jump a).input = s.input := rfl

/-! ### setI -/

@[simp] theorem State.setI_v (s : State) (a : Word) : (s.setI a).v = s.v := rfl
@[simp] theorem State.setI_i (s : State) (a : Word) : (s.setI a).i = a := rfl
@[simp] theorem State.setI_pc (s : State) (a : Word) : (s.setI a).pc = s.pc := rfl
@[simp] theorem State.setI_sp (s : State) (a : Word) : (s.setI a).sp = s.sp := rfl
@[simp] theorem State.setI_stack (s : State) (a : Word) : (s.setI a).stack = s.stack := rfl
@[simp] theorem State.setI_dt (s : State) (a : Word) : (s.setI a).dt = s.dt := rfl
@[simp] theorem State.setI_st (s : State) (a : Word) : (s.setI a).st = s.st := rfl
@[simp] theorem State.setI_disp (s : State) (a : Word) : (s.setI a).disp = s.disp := rfl
@[simp] theorem State.setI_dirty (s : State) (a : Word) : (s.setI a).dirty = s.dirty := rfl
@[simp] theorem State.setI_key (s : State) (a : Word) : (s.setI a).key = s.key := rfl
@[simp] theorem State.setI_halted (s : State) (a : Word) : (s.setI a).halted = s.halted := rfl
@[simp] theorem State.setI_cause (s : State) (a : Word) : (s.setI a).cause = s.cause := rfl
@[simp] theorem State.setI_mem (s : State) (a : Word) : (s.setI a).mem = s.mem := rfl
@[simp] theorem State.setI_renderOut (s : State) (a : Word) : (s.setI a).renderOut = s.renderOut := rfl
@[simp] theorem State.setI_toneOut (s : State) (a : Word) : (s.setI a).toneOut = s.toneOut := rfl
@[simp] theorem State.setI_stop (s : State) (a : Word) : (s.setI a).stop = s.stop := rfl
@[simp] theorem State.setI_dumpRequest (s : State) (a : Word) : (s.setI a).dumpRequest = s.dumpRequest := rfl
@[simp] theorem State.setI_params (s : State) (a : Word) : (s.setI a).params = s.params := rfl
@[simp] theorem State.setI_inputs (s : State) (a : Word) : (s.setI a).inputs = s.inputs := rfl
@[simp] theorem State.setI_frame (s : State) (a : Word) : (s.setI a).frame = s.frame := rfl
@[simp] theorem State.setI_getV (s : State) (a : Word) (r : RegIdx) : (s.setI a).getV r = s.getV r := rfl
@[simp] theorem State.setI_stackAt (s : State) (a : Word) (j : BitVec 4) : (s.setI a).stackAt j = s.stackAt j := rfl
@[simp] theorem State.setI_input (s : State) (a : Word) : (s.setI a).input = s.input := rfl

/-! ### setDT -/

@[simp] theorem State.setDT_v (s : State) (b : Byte) : (s.setDT b).v = s.v := rfl
@[simp] theorem State.setDT_i (s : State) (b : Byte) : (s.setDT b).i = s.i := rfl
@[simp] theorem State.setDT_pc (s : State) (b : Byte) : (s.setDT b).pc = s.pc := rfl
@[simp] theorem State.setDT_sp (s : State) (b : Byte) : (s.setDT b).sp = s.sp := rfl
@[simp] theorem State.setDT_stack (s : State) (b : Byte) : (s.setDT b).stack = s.stack := rfl
@[simp] theorem State.setDT_dt (s : State) (b : Byte) : (s.setDT b).dt = b := rfl
@[simp] theorem State.setDT_st (s : State) (b : Byte) : (s.setDT b).st = s.st := rfl
@[simp] theorem State.setDT_disp (s : State) (b : Byte) : (s.setDT b).disp = s.disp := rfl
@[simp] theorem State.setDT_dirty (s : State) (b : Byte) : (s.setDT b).dirty = s.dirty := rfl
@[simp] theorem State.setDT_key (s : State) (b : Byte) : (s.setDT b).key = s.key := rfl
@[simp] theorem State.setDT_halted (s : State) (b : Byte) : (s.setDT b).halted = s.halted := rfl
@[simp] theorem State.setDT_cause (s : State) (b : Byte) : (s.setDT b).cause = s.cause := rfl
@[simp] theorem State.setDT_mem (s : State) (b : Byte) : (s.setDT b).mem = s.mem := rfl
@[simp] theorem State.setDT_renderOut (s : State) (b : Byte) : (s.setDT b).renderOut = s.renderOut := rfl
@[simp] theorem State.setDT_toneOut (s : State) (b : Byte) : (s.setDT b).toneOut = s.toneOut := rfl
@[simp] theorem State.setDT_stop (s : State) (b : Byte) : (s.setDT b).stop = s.stop := rfl
@[simp] theorem State.setDT_dumpRequest (s : State) (b : Byte) : (s.setDT b).dumpRequest = s.dumpRequest := rfl
@[simp] theorem State.setDT_params (s : State) (b : Byte) : (s.setDT b).params = s.params := rfl
@[simp] theorem State.setDT_inputs (s : State) (b : Byte) : (s.setDT b).inputs = s.inputs := rfl
@[simp] theorem State.setDT_frame (s : State) (b : Byte) : (s.setDT b).frame = s.frame := rfl
@[simp] theorem State.setDT_getV (s : State) (b : Byte) (r : RegIdx) : (s.setDT b).getV r = s.getV r := rfl
@[simp] theorem State.setDT_stackAt (s : State) (b : Byte) (j : BitVec 4) : (s.setDT b).stackAt j = s.stackAt j := rfl
@[simp] theorem State.setDT_input (s : State) (b : Byte) : (s.setDT b).input = s.input := rfl

/-! ### setST -/

@[simp] theorem State.setST_v (s : State) (b : Byte) : (s.setST b).v = s.v := rfl
@[simp] theorem State.setST_i (s : State) (b : Byte) : (s.setST b).i = s.i := rfl
@[simp] theorem State.setST_pc (s : State) (b : Byte) : (s.setST b).pc = s.pc := rfl
@[simp] theorem State.setST_sp (s : State) (b : Byte) : (s.setST b).sp = s.sp := rfl
@[simp] theorem State.setST_stack (s : State) (b : Byte) : (s.setST b).stack = s.stack := rfl
@[simp] theorem State.setST_dt (s : State) (b : Byte) : (s.setST b).dt = s.dt := rfl
@[simp] theorem State.setST_st (s : State) (b : Byte) : (s.setST b).st = b := rfl
@[simp] theorem State.setST_disp (s : State) (b : Byte) : (s.setST b).disp = s.disp := rfl
@[simp] theorem State.setST_dirty (s : State) (b : Byte) : (s.setST b).dirty = s.dirty := rfl
@[simp] theorem State.setST_key (s : State) (b : Byte) : (s.setST b).key = s.key := rfl
@[simp] theorem State.setST_halted (s : State) (b : Byte) : (s.setST b).halted = s.halted := rfl
@[simp] theorem State.setST_cause (s : State) (b : Byte) : (s.setST b).cause = s.cause := rfl
@[simp] theorem State.setST_mem (s : State) (b : Byte) : (s.setST b).mem = s.mem := rfl
@[simp] theorem State.setST_renderOut (s : State) (b : Byte) : (s.setST b).renderOut = s.renderOut := rfl
@[simp] theorem State.setST_toneOut (s : State) (b : Byte) : (s.setST b).toneOut = s.toneOut := rfl
@[simp] theorem State.setST_stop (s : State) (b : Byte) : (s.setST b).stop = s.stop := rfl
@[simp] theorem State.setST_dumpRequest (s : State) (b : Byte) : (s.setST b).dumpRequest = s.dumpRequest := rfl
@[simp] theorem State.setST_params (s : State) (b : Byte) : (s.setST b).params = s.params := rfl
@[simp] theorem State.setST_inputs (s : State) (b : Byte) : (s.setST b).inputs = s.inputs := rfl
@[simp] theorem State.setST_frame (s : State) (b : Byte) : (s.setST b).frame = s.frame := rfl
@[simp] theorem State.setST_getV (s : State) (b : Byte) (r : RegIdx) : (s.setST b).getV r = s.getV r := rfl
@[simp] theorem State.setST_stackAt (s : State) (b : Byte) (j : BitVec 4) : (s.setST b).stackAt j = s.stackAt j := rfl
@[simp] theorem State.setST_input (s : State) (b : Byte) : (s.setST b).input = s.input := rfl

/-! ### store -/

@[simp] theorem State.store_v (s : State) (a : Nat) (bs : List Byte) : (s.store a bs).v = s.v := rfl
@[simp] theorem State.store_i (s : State) (a : Nat) (bs : List Byte) : (s.store a bs).i = s.i := rfl
@[simp] theorem State.store_pc (s : State) (a : Nat) (bs : List Byte) : (s.store a bs).pc = s.pc := rfl
@[simp] theorem State.store_sp (s : State) (a : Nat) (bs : List Byte) : (s.store a bs).sp = s.sp := rfl
@[simp] theorem State.store_stack (s : State) (a : Nat) (bs : List Byte) : (s.store a bs).stack = s.stack := rfl
@[simp] theorem State.store_dt (s : State) (a : Nat) (bs : List Byte) : (s.store a bs).dt = s.dt := rfl
@[simp] theorem State.store_st (s : State) (a : Nat) (bs : List Byte) : (s.store a bs).st = s.st := rfl
@[simp] theorem State.store_disp (s : State) (a : Nat) (bs : List Byte) : (s.store a bs).disp = s.disp := rfl
@[simp] theorem State.store_dirty (s : State) (a : Nat) (bs : List Byte) : (s.store a bs).dirty = s.dirty := rfl
@[simp] theorem State.store_key (s : State) (a : Nat) (bs : List Byte) : (s.store a bs).key = s.key := rfl
@[simp] theorem State.store_halted (s : State) (a : Nat) (bs : List Byte) : (s.store a bs).halted = s.halted := rfl
@[simp] theorem State.store_cause (s : State) (a : Nat) (bs : List Byte) : (s.store a bs).cause = s.cause := rfl
@[simp] theorem State.store_mem (s : State) (a : Nat) (bs : List Byte) : (s.store a bs).mem = s.mem.writeBytes a bs := rfl
@[simp] theorem State.store_renderOut (s : State) (a : Nat) (bs : List Byte) : (s.store a bs).renderOut = s.renderOut := rfl
@[simp] theorem State.store_toneOut (s : State) (a : Nat) (bs : List Byte) : (s.store a bs).toneOut = s.toneOut := rfl
@[simp] theorem State.store_stop (s : State) (a : Nat) (bs : List Byte) : (s.store a bs).stop = s.stop := rfl
@[simp] theorem State.store_dumpRequest (s : State) (a : Nat) (bs : List Byte) : (s.store a bs).dumpRequest = s.dumpRequest := rfl
@[simp] theorem State.store_params (s : State) (a : Nat) (bs : List Byte) : (s.store a bs).params = s.params := rfl
@[simp] theorem State.store_inputs (s : State) (a : Nat) (bs : List Byte) : (s.store a bs).inputs = s.inputs := rfl
@[simp] theorem State.store_frame (s : State) (a : Nat) (bs : List Byte) : (s.store a bs).frame = s.frame := rfl
@[simp] theorem State.store_getV (s : State) (a : Nat) (bs : List Byte) (r : RegIdx) : (s.store a bs).getV r = s.getV r := rfl
@[simp] theorem State.store_stackAt (s : State) (a : Nat) (bs : List Byte) (j : BitVec 4) : (s.store a bs).stackAt j = s.stackAt j := rfl
@[simp] theorem State.store_input (s : State) (a : Nat) (bs : List Byte) : (s.store a bs).input = s.input := rfl

/-! ### push -/

@[simp] theorem State.push_v (s : State) (a : Word) : (s.push a).v = s.v := rfl
@[simp] theorem State.push_i (s : State) (a : Word) : (s.push a).i = s.i := rfl
@[simp] theorem State.push_pc (s : State) (a : Word) : (s.push a).pc = s.pc := rfl
@[simp] theorem State.push_sp (s : State) (a : Word) : (s.push a).sp = s.sp + 1 := rfl
@[simp] theorem State.push_dt (s : State) (a : Word) : (s.push a).dt = s.dt := rfl
@[simp] theorem State.push_st (s : State) (a : Word) : (s.push a).st = s.st := rfl
@[simp] theorem State.push_disp (s : State) (a : Word) : (s.push a).disp = s.disp := rfl
@[simp] theorem State.push_dirty (s : State) (a : Word) : (s.push a).dirty = s.dirty := rfl
@[simp] theorem State.push_key (s : State) (a : Word) : (s.push a).key = s.key := rfl
@[simp] theorem State.push_halted (s : State) (a : Word) : (s.push a).halted = s.halted := rfl
@[simp] theorem State.push_cause (s : State) (a : Word) : (s.push a).cause = s.cause := rfl
@[simp] theorem State.push_mem (s : State) (a : Word) : (s.push a).mem = s.mem := rfl
@[simp] theorem State.push_renderOut (s : State) (a : Word) : (s.push a).renderOut = s.renderOut := rfl
@[simp] theorem State.push_toneOut (s : State) (a : Word) : (s.push a).toneOut = s.toneOut := rfl
@[simp] theorem State.push_stop (s : State) (a : Word) : (s.push a).stop = s.stop := rfl
@[simp] theorem State.push_dumpRequest (s : State) (a : Word) : (s.push a).dumpRequest = s.dumpRequest := rfl
@[simp] theorem State.push_params (s : State) (a : Word) : (s.push a).params = s.params := rfl
@[simp] theorem State.push_inputs (s : State) (a : Word) : (s.push a).inputs = s.inputs := rfl
@[simp] theorem State.push_frame (s : State) (a : Word) : (s.push a).frame = s.frame := rfl
@[simp] theorem State.push_getV (s : State) (a : Word) (r : RegIdx) : (s.push a).getV r = s.getV r := rfl
@[simp] theorem State.push_input (s : State) (a : Word) : (s.push a).input = s.input := rfl

/-! ### pop -/

@[simp] theorem State.pop_v (s : State) : s.pop.v = s.v := rfl
@[simp] theorem State.pop_i (s : State) : s.pop.i = s.i := rfl
@[simp] theorem State.pop_pc (s : State) : s.pop.pc = s.pc := rfl
@[simp] theorem State.pop_sp (s : State) : s.pop.sp = s.sp - 1 := rfl
@[simp] theorem State.pop_stack (s : State) : s.pop.stack = s.stack := rfl
@[simp] theorem State.pop_dt (s : State) : s.pop.dt = s.dt := rfl
@[simp] theorem State.pop_st (s : State) : s.pop.st = s.st := rfl
@[simp] theorem State.pop_disp (s : State) : s.pop.disp = s.disp := rfl
@[simp] theorem State.pop_dirty (s : State) : s.pop.dirty = s.dirty := rfl
@[simp] theorem State.pop_key (s : State) : s.pop.key = s.key := rfl
@[simp] theorem State.pop_halted (s : State) : s.pop.halted = s.halted := rfl
@[simp] theorem State.pop_cause (s : State) : s.pop.cause = s.cause := rfl
@[simp] theorem State.pop_mem (s : State) : s.pop.mem = s.mem := rfl
@[simp] theorem State.pop_renderOut (s : State) : s.pop.renderOut = s.renderOut := rfl
@[simp] theorem State.pop_toneOut (s : State) : s.pop.toneOut = s.toneOut := rfl
@[simp] theorem State.pop_stop (s : State) : s.pop.stop = s.stop := rfl
@[simp] theorem State.pop_dumpRequest (s : State) : s.pop.dumpRequest = s.dumpRequest := rfl
@[simp] theorem State.pop_params (s : State) : s.pop.params = s.params := rfl
@[simp] theorem State.pop_inputs (s : State) : s.pop.inputs = s.inputs := rfl
@[simp] theorem State.pop_frame (s : State) : s.pop.frame = s.frame := rfl
@[simp] theorem State.pop_getV (s : State) (r : RegIdx) : s.pop.getV r = s.getV r := rfl
@[simp] theorem State.pop_stackAt (s : State) (j : BitVec 4) : s.pop.stackAt j = s.stackAt j := rfl
@[simp] theorem State.pop_input (s : State) : s.pop.input = s.input := rfl

/-! ### raise -/

@[simp] theorem State.raise_v (s : State) (c : Cause) : (s.raise c).v = s.v := rfl
@[simp] theorem State.raise_i (s : State) (c : Cause) : (s.raise c).i = s.i := rfl
@[simp] theorem State.raise_pc (s : State) (c : Cause) : (s.raise c).pc = s.pc := rfl
@[simp] theorem State.raise_sp (s : State) (c : Cause) : (s.raise c).sp = s.sp := rfl
@[simp] theorem State.raise_stack (s : State) (c : Cause) : (s.raise c).stack = s.stack := rfl
@[simp] theorem State.raise_dt (s : State) (c : Cause) : (s.raise c).dt = s.dt := rfl
@[simp] theorem State.raise_st (s : State) (c : Cause) : (s.raise c).st = s.st := rfl
@[simp] theorem State.raise_disp (s : State) (c : Cause) : (s.raise c).disp = s.disp := rfl
@[simp] theorem State.raise_dirty (s : State) (c : Cause) : (s.raise c).dirty = s.dirty := rfl
@[simp] theorem State.raise_key (s : State) (c : Cause) : (s.raise c).key = s.key := rfl
@[simp] theorem State.raise_halted (s : State) (c : Cause) : (s.raise c).halted = true := rfl
@[simp] theorem State.raise_cause (s : State) (c : Cause) : (s.raise c).cause = s.cause.or (some c) := rfl
@[simp] theorem State.raise_mem (s : State) (c : Cause) : (s.raise c).mem = s.mem := rfl
@[simp] theorem State.raise_renderOut (s : State) (c : Cause) : (s.raise c).renderOut = s.renderOut := rfl
@[simp] theorem State.raise_toneOut (s : State) (c : Cause) : (s.raise c).toneOut = s.toneOut := rfl
@[simp] theorem State.raise_stop (s : State) (c : Cause) : (s.raise c).stop = s.stop := rfl
@[simp] theorem State.raise_dumpRequest (s : State) (c : Cause) : (s.raise c).dumpRequest = s.dumpRequest := rfl
@[simp] theorem State.raise_params (s : State) (c : Cause) : (s.raise c).params = s.params := rfl
@[simp] theorem State.raise_inputs (s : State) (c : Cause) : (s.raise c).inputs = s.inputs := rfl
@[simp] theorem State.raise_frame (s : State) (c : Cause) : (s.raise c).frame = s.frame := rfl
@[simp] theorem State.raise_getV (s : State) (c : Cause) (r : RegIdx) : (s.raise c).getV r = s.getV r := rfl
@[simp] theorem State.raise_stackAt (s : State) (c : Cause) (j : BitVec 4) : (s.raise c).stackAt j = s.stackAt j := rfl
@[simp] theorem State.raise_input (s : State) (c : Cause) : (s.raise c).input = s.input := rfl

/-! ### clearDisplay -/

@[simp] theorem State.clearDisplay_v (s : State) : s.clearDisplay.v = s.v := rfl
@[simp] theorem State.clearDisplay_i (s : State) : s.clearDisplay.i = s.i := rfl
@[simp] theorem State.clearDisplay_pc (s : State) : s.clearDisplay.pc = s.pc := rfl
@[simp] theorem State.clearDisplay_sp (s : State) : s.clearDisplay.sp = s.sp := rfl
@[simp] theorem State.clearDisplay_stack (s : State) : s.clearDisplay.stack = s.stack := rfl
@[simp] theorem State.clearDisplay_dt (s : State) : s.clearDisplay.dt = s.dt := rfl
@[simp] theorem State.clearDisplay_st (s : State) : s.clearDisplay.st = s.st := rfl
@[simp] theorem State.clearDisplay_disp (s : State) : s.clearDisplay.disp = Display.blank := rfl
@[simp] theorem State.clearDisplay_dirty (s : State) : s.clearDisplay.dirty = (s.dirty || s.params.clsDirty) := rfl
@[simp] theorem State.clearDisplay_key (s : State) : s.clearDisplay.key = s.key := rfl
@[simp] theorem State.clearDisplay_halted (s : State) : s.clearDisplay.halted = s.halted := rfl
@[simp] theorem State.clearDisplay_cause (s : State) : s.clearDisplay.cause = s.cause := rfl
@[simp] theorem State.clearDisplay_mem (s : State) : s.clearDisplay.mem = s.mem := rfl
@[simp] theorem State.clearDisplay_renderOut (s : State) : s.clearDisplay.renderOut = s.renderOut := rfl
@[simp] theorem State.clearDisplay_toneOut (s : State) : s.clearDisplay.toneOut = s.toneOut := rfl
@[simp] theorem State.clearDisplay_stop (s : State) : s.clearDisplay.stop = s.stop := rfl
@[simp] theorem State.clearDisplay_dumpRequest (s : State) : s.clearDisplay.dumpRequest = s.dumpRequest := rfl
@[simp] theorem State.clearDisplay_params (s : State) : s.clearDisplay.params = s.params := rfl
@[simp] theorem State.clearDisplay_inputs (s : State) : s.clearDisplay.inputs = s.inputs := rfl
@[simp] theorem State.clearDisplay_frame (s : State) : s.clearDisplay.frame = s.frame := rfl
@[simp] theorem State.clearDisplay_getV (s : State) (r : RegIdx) : s.clearDisplay.getV r = s.getV r := rfl
@[simp] theorem State.clearDisplay_stackAt (s : State) (j : BitVec 4) : s.clearDisplay.stackAt j = s.stackAt j := rfl
@[simp] theorem State.clearDisplay_input (s : State) : s.clearDisplay.input = s.input := rfl

/-! ### setDisplay -/

@[simp] theorem State.setDisplay_v (s : State) (d : Display) : (s.setDisplay d).v = s.v := rfl
@[simp] theorem State.setDisplay_i (s : State) (d : Display) : (s.setDisplay d).i = s.i := rfl
@[simp] theorem State.setDisplay_pc (s : State) (d : Display) : (s.setDisplay d).pc = s.pc := rfl
@[simp] theorem State.setDisplay_sp (s : State) (d : Display) : (s.setDisplay d).sp = s.sp := rfl
@[simp] theorem State.setDisplay_stack (s : State) (d : Display) : (s.setDisplay d).stack = s.stack := rfl
@[simp] theorem State.setDisplay_dt (s : State) (d : Display) : (s.setDisplay d).dt = s.dt := rfl
@[simp] theorem State.setDisplay_st (s : State) (d : Display) : (s.setDisplay d).st = s.st := rfl
@[simp] theorem State.setDisplay_disp (s : State) (d : Display) : (s.setDisplay d).disp = d := rfl
@[simp] theorem State.setDisplay_dirty (s : State) (d : Display) : (s.setDisplay d).dirty = true := rfl
@[simp] theorem State.setDisplay_key (s : State) (d : Display) : (s.setDisplay d).key = s.key := rfl
@[simp] theorem State.setDisplay_halted (s : State) (d : Display) : (s.setDisplay d).halted = s.halted := rfl
@[simp] theorem State.setDisplay_cause (s : State) (d : Display) : (s.setDisplay d).cause = s.cause := rfl
@[simp] theorem State.setDisplay_mem (s : State) (d : Display) : (s.setDisplay d).mem = s.mem := rfl
@[simp] theorem State.setDisplay_renderOut (s : State) (d : Display) : (s.setDisplay d).renderOut = s.renderOut := rfl
@[simp] theorem State.setDisplay_toneOut (s : State) (d : Display) : (s.setDisplay d).toneOut = s.toneOut := rfl
@[simp] theorem State.setDisplay_stop (s : State) (d : Display) : (s.setDisplay d).stop = s.stop := rfl
@[simp] theorem State.setDisplay_dumpRequest (s : State) (d : Display) : (s.setDisplay d).dumpRequest = s.dumpRequest := rfl
@[simp] theorem State.setDisplay_params (s : State) (d : Display) : (s.setDisplay d).params = s.params := rfl
@[simp] theorem State.setDisplay_inputs (s : State) (d : Display) : (s.setDisplay d).inputs = s.inputs := rfl
@[simp] theorem State.setDisplay_frame (s : State) (d : Display) : (s.setDisplay d).frame = s.frame := rfl
@[simp] theorem State.setDisplay_getV (s : State) (d : Display) (r : RegIdx) : (s.setDisplay d).getV r = s.getV r := rfl
@[simp] theorem State.setDisplay_stackAt (s : State) (d : Display) (j : BitVec 4) : (s.setDisplay d).stackAt j = s.stackAt j := rfl
@[simp] theorem State.setDisplay_input (s : State) (d : Display) : (s.setDisplay d).input = s.input := rfl

/-! ### takeKeys -/

@[simp] theorem State.takeKeys_v (s : State) : s.takeKeys.v = s.v := rfl
@[simp] theorem State.takeKeys_i (s : State) : s.takeKeys.i = s.i := rfl
@[simp] theorem State.takeKeys_pc (s : State) : s.takeKeys.pc = s.pc := rfl
@[simp] theorem State.takeKeys_sp (s : State) : s.takeKeys.sp = s.sp := rfl
@[simp] theorem State.takeKeys_stack (s : State) : s.takeKeys.stack = s.stack := rfl
@[simp] theorem State.takeKeys_dt (s : State) : s.takeKeys.dt = s.dt := rfl
@[simp] theorem State.takeKeys_st (s : State) : s.takeKeys.st = s.st := rfl
@[simp] theorem State.takeKeys_disp (s : State) : s.takeKeys.disp = s.disp := rfl
@[simp] theorem State.takeKeys_dirty (s : State) : s.takeKeys.dirty = s.dirty := rfl
@[simp] theorem State.takeKeys_key (s : State) : s.takeKeys.key = s.input.keys := rfl
@[simp] theorem State.takeKeys_halted (s : State) : s.takeKeys.halted = s.halted := rfl
@[simp] theorem State.takeKeys_cause (s : State) : s.takeKeys.cause = s.cause := rfl
@[simp] theorem State.takeKeys_mem (s : State) : s.takeKeys.mem = s.mem := rfl
@[simp] theorem State.takeKeys_renderOut (s : State) : s.takeKeys.renderOut = s.renderOut := rfl
@[simp] theorem State.takeKeys_toneOut (s : State) : s.takeKeys.toneOut = s.toneOut := rfl
@[simp] theorem State.takeKeys_stop (s : State) : s.takeKeys.stop = s.stop := rfl
@[simp] theorem State.takeKeys_dumpRequest (s : State) : s.takeKeys.dumpRequest = s.dumpRequest := rfl
@[simp] theorem State.takeKeys_params (s : State) : s.takeKeys.params = s.params := rfl
@[simp] theorem State.takeKeys_inputs (s : State) : s.takeKeys.inputs = s.inputs := rfl
@[simp] theorem State.takeKeys_frame (s : State) : s.takeKeys.frame = s.frame := rfl
@[simp] theorem State.takeKeys_getV (s : State) (r : RegIdx) : s.takeKeys.getV r = s.getV r := rfl
@[simp] theorem State.takeKeys_stackAt (s : State) (j : BitVec 4) : s.takeKeys.stackAt j = s.stackAt j := rfl
@[simp] theorem State.takeKeys_input (s : State) : s.takeKeys.input = s.input := rfl

/-! ### endFrame -/

@[simp] theorem State.endFrame_v (s : State) : s.endFrame.v = s.v := rfl
@[simp] theorem State.endFrame_i (s : State) : s.endFrame.i = s.i := rfl
@[simp] theorem State.endFrame_pc (s : State) : s.endFrame.pc = s.pc := rfl
@[simp] theorem State.endFrame_sp (s : State) : s.endFrame.sp = s.sp := rfl
@[simp] theorem State.endFrame_stack (s : State) : s.endFrame.stack = s.stack := rfl
@[simp] theorem State.endFrame_dt (s : State) : s.endFrame.dt = s.dt := rfl
@[simp] theorem State.endFrame_st (s : State) : s.endFrame.st = s.st := rfl
@[simp] theorem State.endFrame_disp (s : State) : s.endFrame.disp = s.disp := rfl
@[simp] theorem State.endFrame_dirty (s : State) : s.endFrame.dirty = s.dirty := rfl
@[simp] theorem State.endFrame_key (s : State) : s.endFrame.key = s.key := rfl
@[simp] theorem State.endFrame_halted (s : State) : s.endFrame.halted = s.halted := rfl
@[simp] theorem State.endFrame_cause (s : State) : s.endFrame.cause = s.cause := rfl
@[simp] theorem State.endFrame_mem (s : State) : s.endFrame.mem = s.mem := rfl
@[simp] theorem State.endFrame_renderOut (s : State) : s.endFrame.renderOut = s.renderOut := rfl
@[simp] theorem State.endFrame_toneOut (s : State) : s.endFrame.toneOut = s.toneOut := rfl
@[simp] theorem State.endFrame_stop (s : State) : s.endFrame.stop = s.stop := rfl
@[simp] theorem State.endFrame_dumpRequest (s : State) : s.endFrame.dumpRequest = s.dumpRequest := rfl
@[simp] theorem State.endFrame_params (s : State) : s.endFrame.params = s.params := rfl
@[simp] theorem State.endFrame_inputs (s : State) : s.endFrame.inputs = s.inputs.tail := rfl
@[simp] theorem State.endFrame_frame (s : State) : s.endFrame.frame = s.frame + 1 := rfl
@[simp] theorem State.endFrame_getV (s : State) (r : RegIdx) : s.endFrame.getV r = s.getV r := rfl
@[simp] theorem State.endFrame_stackAt (s : State) (j : BitVec 4) : s.endFrame.stackAt j = s.stackAt j := rfl

/-! ### endRun -/

@[simp] theorem State.endRun_v (s : State) : s.endRun.v = s.v := rfl
@[simp] theorem State.endRun_i (s : State) : s.endRun.i = s.i := rfl
@[simp] theorem State.endRun_pc (s : State) : s.endRun.pc = s.pc := rfl
@[simp] theorem State.endRun_sp (s : State) : s.endRun.sp = s.sp := rfl
@[simp] theorem State.endRun_stack (s : State) : s.endRun.stack = s.stack := rfl
@[simp] theorem State.endRun_dt (s : State) : s.endRun.dt = s.dt := rfl
@[simp] theorem State.endRun_st (s : State) : s.endRun.st = s.st := rfl
@[simp] theorem State.endRun_disp (s : State) : s.endRun.disp = s.disp := rfl
@[simp] theorem State.endRun_dirty (s : State) : s.endRun.dirty = s.dirty := rfl
@[simp] theorem State.endRun_key (s : State) : s.endRun.key = s.key := rfl
@[simp] theorem State.endRun_halted (s : State) : s.endRun.halted = s.halted := rfl
@[simp] theorem State.endRun_cause (s : State) : s.endRun.cause = s.cause := rfl
@[simp] theorem State.endRun_mem (s : State) : s.endRun.mem = s.mem := rfl
@[simp] theorem State.endRun_renderOut (s : State) : s.endRun.renderOut = none := rfl
@[simp] theorem State.endRun_toneOut (s : State) : s.endRun.toneOut = s.toneOut := rfl
@[simp] theorem State.endRun_stop (s : State) : s.endRun.stop = true := rfl
@[simp] theorem State.endRun_dumpRequest (s : State) : s.endRun.dumpRequest = true := rfl
@[simp] theorem State.endRun_params (s : State) : s.endRun.params = s.params := rfl
@[simp] theorem State.endRun_inputs (s : State) : s.endRun.inputs = s.inputs := rfl
@[simp] theorem State.endRun_frame (s : State) : s.endRun.frame = s.frame := rfl
@[simp] theorem State.endRun_getV (s : State) (r : RegIdx) : s.endRun.getV r = s.getV r := rfl
@[simp] theorem State.endRun_stackAt (s : State) (j : BitVec 4) : s.endRun.stackAt j = s.stackAt j := rfl
@[simp] theorem State.endRun_input (s : State) : s.endRun.input = s.input := rfl

/-! ### render -/

@[simp] theorem State.render_v (s : State) : s.render.v = s.v := rfl
@[simp] theorem State.render_i (s : State) : s.render.i = s.i := rfl
@[simp] theorem State.render_pc (s : State) : s.render.pc = s.pc := rfl
@[simp] theorem State.render_sp (s : State) : s.render.sp = s.sp := rfl
@[simp] theorem State.render_stack (s : State) : s.render.stack = s.stack := rfl
@[simp] theorem State.render_dt (s : State) : s.render.dt = s.dt := rfl
@[simp] theorem State.render_st (s : State) : s.render.st = s.st := rfl
@[simp] theorem State.render_disp (s : State) : s.render.disp = s.disp := rfl
@[simp] theorem State.render_dirty (s : State) : s.render.dirty = false := rfl
@[simp] theorem State.render_key (s : State) : s.render.key = s.key := rfl
@[simp] theorem State.render_halted (s : State) : s.render.halted = s.halted := rfl
@[simp] theorem State.render_cause (s : State) : s.render.cause = s.cause := rfl
@[simp] theorem State.render_mem (s : State) : s.render.mem = s.mem := rfl
@[simp] theorem State.render_renderOut (s : State) : s.render.renderOut = if s.dirty then some s.disp else none := rfl
@[simp] theorem State.render_toneOut (s : State) : s.render.toneOut = s.toneOut := rfl
@[simp] theorem State.render_stop (s : State) : s.render.stop = s.stop := rfl
@[simp] theorem State.render_dumpRequest (s : State) : s.render.dumpRequest = s.dumpRequest := rfl
@[simp] theorem State.render_params (s : State) : s.render.params = s.params := rfl
@[simp] theorem State.render_inputs (s : State) : s.render.inputs = s.inputs := rfl
@[simp] theorem State.render_frame (s : State) : s.render.frame = s.frame := rfl
@[simp] theorem State.render_getV (s : State) (r : RegIdx) : s.render.getV r = s.getV r := rfl
@[simp] theorem State.render_stackAt (s : State) (j : BitVec 4) : s.render.stackAt j = s.stackAt j := rfl
@[simp] theorem State.render_input (s : State) : s.render.input = s.input := rfl

/-! ### tick -/

@[simp] theorem State.tick_v (s : State) : s.tick.v = s.v := rfl
@[simp] theorem State.tick_i (s : State) : s.tick.i = s.i := rfl
@[simp] theorem State.tick_pc (s : State) : s.tick.pc = s.pc := rfl
@[simp] theorem State.tick_sp (s : State) : s.tick.sp = s.sp := rfl
@[simp] theorem State.tick_stack (s : State) : s.tick.stack = s.stack := rfl
@[simp] theorem State.tick_dt (s : State) : s.tick.dt = decTimer s.dt := rfl
@[simp] theorem State.tick_st (s : State) : s.tick.st = decTimer s.st := rfl
@[simp] theorem State.tick_disp (s : State) : s.tick.disp = s.disp := rfl
@[simp] theorem State.tick_dirty (s : State) : s.tick.dirty = s.dirty := rfl
@[simp] theorem State.tick_key (s : State) : s.tick.key = s.key := rfl
@[simp] theorem State.tick_halted (s : State) : s.tick.halted = s.halted := rfl
@[simp] theorem State.tick_cause (s : State) : s.tick.cause = s.cause := rfl
@[simp] theorem State.tick_mem (s : State) : s.tick.mem = s.mem := rfl
@[simp] theorem State.tick_renderOut (s : State) : s.tick.renderOut = s.renderOut := rfl
@[simp] theorem State.tick_toneOut (s : State) : s.tick.toneOut = s.toneOut := rfl
@[simp] theorem State.tick_stop (s : State) : s.tick.stop = s.stop := rfl
@[simp] theorem State.tick_dumpRequest (s : State) : s.tick.dumpRequest = s.dumpRequest := rfl
@[simp] theorem State.tick_params (s : State) : s.tick.params = s.params := rfl
@[simp] theorem State.tick_inputs (s : State) : s.tick.inputs = s.inputs := rfl
@[simp] theorem State.tick_frame (s : State) : s.tick.frame = s.frame := rfl
@[simp] theorem State.tick_getV (s : State) (r : RegIdx) : s.tick.getV r = s.getV r := rfl
@[simp] theorem State.tick_stackAt (s : State) (j : BitVec 4) : s.tick.stackAt j = s.stackAt j := rfl
@[simp] theorem State.tick_input (s : State) : s.tick.input = s.input := rfl

/-! ### tone -/

@[simp] theorem State.tone_v (s : State) : s.tone.v = s.v := rfl
@[simp] theorem State.tone_i (s : State) : s.tone.i = s.i := rfl
@[simp] theorem State.tone_pc (s : State) : s.tone.pc = s.pc := rfl
@[simp] theorem State.tone_sp (s : State) : s.tone.sp = s.sp := rfl
@[simp] theorem State.tone_stack (s : State) : s.tone.stack = s.stack := rfl
@[simp] theorem State.tone_dt (s : State) : s.tone.dt = s.dt := rfl
@[simp] theorem State.tone_st (s : State) : s.tone.st = s.st := rfl
@[simp] theorem State.tone_disp (s : State) : s.tone.disp = s.disp := rfl
@[simp] theorem State.tone_dirty (s : State) : s.tone.dirty = s.dirty := rfl
@[simp] theorem State.tone_key (s : State) : s.tone.key = s.key := rfl
@[simp] theorem State.tone_halted (s : State) : s.tone.halted = s.halted := rfl
@[simp] theorem State.tone_cause (s : State) : s.tone.cause = s.cause := rfl
@[simp] theorem State.tone_mem (s : State) : s.tone.mem = s.mem := rfl
@[simp] theorem State.tone_renderOut (s : State) : s.tone.renderOut = s.renderOut := rfl
@[simp] theorem State.tone_toneOut (s : State) : s.tone.toneOut = if s.st = 0 then .stop else .start := rfl
@[simp] theorem State.tone_stop (s : State) : s.tone.stop = s.stop := rfl
@[simp] theorem State.tone_dumpRequest (s : State) : s.tone.dumpRequest = s.dumpRequest := rfl
@[simp] theorem State.tone_params (s : State) : s.tone.params = s.params := rfl
@[simp] theorem State.tone_inputs (s : State) : s.tone.inputs = s.inputs := rfl
@[simp] theorem State.tone_frame (s : State) : s.tone.frame = s.frame := rfl
@[simp] theorem State.tone_getV (s : State) (r : RegIdx) : s.tone.getV r = s.getV r := rfl
@[simp] theorem State.tone_stackAt (s : State) (j : BitVec 4) : s.tone.stackAt j = s.stackAt j := rfl
@[simp] theorem State.tone_input (s : State) : s.tone.input = s.input := rfl

/-! ### poll -/

@[simp] theorem State.poll_v (s : State) : s.poll.v = s.v := by
  unfold State.poll; split <;> rfl
@[simp] theorem State.poll_i (s : State) : s.poll.i = s.i := by
  unfold State.poll; split <;> rfl
@[simp] theorem State.poll_pc (s : State) : s.poll.pc = s.pc := by
  unfold State.poll; split <;> rfl
@[simp] theorem State.poll_sp (s : State) : s.poll.sp = s.sp := by
  unfold State.poll; split <;> rfl
@[simp] theorem State.poll_stack (s : State) : s.poll.stack = s.stack := by
  unfold State.poll; split <;> rfl
@[simp] theorem State.poll_dt (s : State) : s.poll.dt = s.dt := by
  unfold State.poll; split <;> rfl
@[simp] theorem State.poll_st (s : State) : s.poll.st = s.st := by
  unfold State.poll; split <;> rfl
@[simp] theorem State.poll_disp (s : State) : s.poll.disp = s.disp := by
  unfold State.poll; split <;> rfl
@[simp] theorem State.poll_dirty (s : State) : s.poll.dirty = s.dirty := by
  unfold State.poll; split <;> rfl
@[simp] theorem State.poll_mem (s : State) : s.poll.mem = s.mem := by
  unfold State.poll; split <;> rfl
@[simp] theorem State.poll_renderOut (s : State) : s.poll.renderOut = s.renderOut := by
  unfold State.poll; split <;> rfl
@[simp] theorem State.poll_toneOut (s : State) : s.poll.toneOut = s.toneOut := by
  unfold State.poll; split <;> rfl
@[simp] theorem State.poll_stop (s : State) : s.poll.stop = s.stop := by
  unfold State.poll; split <;> rfl
@[simp] theorem State.poll_dumpRequest (s : State) : s.poll.dumpRequest = s.dumpRequest := by
  unfold State.poll; split <;> rfl
@[simp] theorem State.poll_params (s : State) : s.poll.params = s.params := by
  unfold State.poll; split <;> rfl
@[simp] theorem State.poll_inputs (s : State) : s.poll.inputs = s.inputs := by
  unfold State.poll; split <;> rfl
@[simp] theorem State.poll_frame (s : State) : s.poll.frame = s.frame := by
  unfold State.poll; split <;> rfl
@[simp] theorem State.poll_key (s : State) : s.poll.key = s.input.keys := by
  unfold State.poll; split <;> rfl
@[simp] theorem State.poll_halted (s : State) : s.poll.halted = (s.halted || s.input.quit) := by
  unfold State.poll; split <;> simp_all
@[simp] theorem State.poll_cause (s : State) :
    s.poll.cause = if s.input.quit then s.cause.or (some .quit) else s.cause := by
  unfold State.poll; split <;> simp_all
@[simp] theorem State.poll_getV (s : State) (r : RegIdx) : s.poll.getV r = s.getV r := by
  unfold State.poll; split <;> rfl
@[simp] theorem State.poll_stackAt (s : State) (j : BitVec 4) : s.poll.stackAt j = s.stackAt j := by
  unfold State.poll; split <;> rfl
@[simp] theorem State.poll_input (s : State) : s.poll.input = s.input := by
  unfold State.poll; split <;> rfl

end Sys2Proof.Machine
end

