-- ==== Sys2Proof/Laws/Ops.lean ====
section
/-! SUPPORT. What the register, stack and fault operations do, said once each. -/

namespace Sys2Proof.Machine

/-! ### Registers -/

theorem State.getV_setV (s : State) (x y : RegIdx) (b : Byte) :
    (s.setV x b).getV y = if x = y then b else s.getV y := by
  simp [State.getV, State.setV, Vector.getElem_set, Fin.ext_iff]

@[simp] theorem State.getV_setV_same (s : State) (x : RegIdx) (b : Byte) : (s.setV x b).getV x = b := by
  simp [State.getV_setV]

theorem State.getV_setV_other (s : State) {x y : RegIdx} (b : Byte) (h : x ≠ y) :
    (s.setV x b).getV y = s.getV y := by
  simp [State.getV_setV, h]

@[simp] theorem State.getV_setFlag_flag (s : State) (f : Bool) : (s.setFlag f).getV 0xF = if f then 1 else 0 := by
  simp [State.setFlag]

theorem State.getV_setFlag_other (s : State) (f : Bool) {y : RegIdx} (h : y ≠ 0xF) :
    (s.setFlag f).getV y = s.getV y := by
  simp [State.setFlag, State.getV_setV, h.symm]

theorem loadFrom_getElem (m : Memory) (a : Nat) (v : Vector Byte 16) (k j : Nat) (hj : j < 16) :
    (loadFrom m a v k)[j] = if j < k then m.read (a + j) else v[j] := by
  induction k with
  | zero => simp [loadFrom]
  | succ k ih =>
    rw [loadFrom, Vector.getElem_setIfInBounds hj, ih]
    rcases Nat.lt_trichotomy j k with h | h | h
    · rw [if_neg (by omega), if_pos h, if_pos (by omega)]
    · subst h; simp
    · rw [if_neg (by omega), if_neg (by omega), if_neg (by omega)]

theorem State.getV_loadRegs (s : State) (x y : RegIdx) (a : Nat) :
    (s.loadRegs x a).getV y = if y ≤ x then s.mem.read (a + y.val) else s.getV y := by
  rw [State.getV, State.loadRegs, loadFrom_getElem _ _ _ _ _ y.isLt, State.getV]
  simp only [Nat.lt_succ_iff, Fin.le_def]

/-- Two states with the same registers by index hold the same register file. -/
theorem State.v_ext {s t : State} (h : ∀ x, s.getV x = t.getV x) : s.v = t.v := by
  apply Vector.ext
  intro j hj
  exact h ⟨j, hj⟩

/-! ### The stack -/

theorem State.stackAt_push (s : State) (a : Word) (j : BitVec 4) :
    (s.push a).stackAt j = if s.sp = j then a else s.stackAt j := by
  simp [State.stackAt, State.push, Vector.getElem_set, BitVec.toNat_inj]

@[simp] theorem State.stackAt_push_same (s : State) (a : Word) : (s.push a).stackAt s.sp = a := by
  simp [State.stackAt_push]

/-! ### Faults -/

/-- Everything `raise` does: it halts, and records the cause unless one is recorded (R261). -/
theorem State.raise_spec (s : State) (c : Cause) :
    (s.raise c).halted = true ∧
      (s.cause = none → (s.raise c).cause = some c) ∧
      (∀ d, s.cause = some d → (s.raise c).cause = some d) := by
  refine ⟨rfl, ?_, ?_⟩
  · intro h; simp [h]
  · intro d h; simp [h]

@[simp] theorem State.raiseBounds_eq (s : State) (a raised : Nat) :
    s.raiseBounds a raised = s.raise (.bounds raised (max a 0x1000)) := rfl

/-! ### Fetch -/

/-- Everything a fetch does: it reads the big-endian word at `PC`, or answers the bounds cause (R61). -/
theorem State.fetch_spec (s : State) :
    (s.pc.toNat ≤ 0xFFE ∧
      s.fetch = .ok (wordOfBytes (s.mem.read s.pc.toNat) (s.mem.read (s.pc.toNat + 1)))) ∨
    (0xFFE < s.pc.toNat ∧ s.fetch = .error (.bounds (max s.pc.toNat 0x1000) (max s.pc.toNat 0x1000))) := by
  unfold State.fetch boundsCause Config.memSize
  by_cases h : s.pc.toNat ≤ 0xFFE
  · left; exact ⟨h, if_pos (by omega)⟩
  · right; exact ⟨by omega, if_neg (by omega)⟩

/-! ### The timers -/

theorem decTimer_toNat (b : Byte) : (decTimer b).toNat = b.toNat - 1 := by
  unfold decTimer
  split
  · simp_all
  · rename_i h
    have hb : b.toNat ≠ 0 := fun h' => h (BitVec.eq_of_toNat_eq (by simpa using h'))
    have := b.isLt
    have h1 : (1 : Byte).toNat = 1 := rfl
    rw [BitVec.toNat_sub, h1]
    omega

end Sys2Proof.Machine
end

