-- ==== Sys2Proof/Laws/PerInstr.lean ====
section
/-! SUPPORT. Per-instruction families. `OpcodeRow`: the encoding of an instruction has the fixed bits
that its row of spec/opcode_table.json gives it (spec R88). -/

namespace Sys2Proof.Laws.OpcodeRow

/-- The word of the instruction, under its row's mask, is the row's match. -/
def Statement (i : Instr) : Prop := encode i &&& (tableRow i).1 = (tableRow i).2

/-! ### The three masks over the three word shapes -/

theorem and_F (b : BitVec 4) : b &&& 0xF = b := BitVec.and_allOnes

theorem and_FF (b : BitVec 8) : b &&& 0xFF = b := BitVec.and_allOnes

theorem wordN_mask (op : BitVec 4) (nnn : Addr12) : wordN op nnn &&& 0xF000 = op ++ (0 : BitVec 12) := by
  rw [wordN, show (0xF000 : Word) = (0xF : BitVec 4) ++ (0 : BitVec 12) from by decide, BitVec.and_append, and_F]
  simp

theorem wordXK_mask (op : BitVec 4) (x : RegIdx) (kk : Byte) :
    wordXK op x kk &&& 0xF000 = op ++ (0 : BitVec 12) := by
  rw [wordXK, show (0xF000 : Word) = (0xF : BitVec 4) ++ (0 : BitVec 12) from by decide, BitVec.and_append, and_F]
  simp

theorem wordXK_mask_kk (op : BitVec 4) (x : RegIdx) (kk : Byte) :
    wordXK op x kk &&& 0xF0FF = op ++ ((0 : BitVec 4) ++ kk) := by
  rw [wordXK, show (0xF0FF : Word) = (0xF : BitVec 4) ++ ((0 : BitVec 4) ++ (0xFF : BitVec 8)) from by decide,
    BitVec.and_append, BitVec.and_append, and_F, and_FF]
  simp

theorem wordXYN_mask (op : BitVec 4) (x y : RegIdx) (n : Nibble) :
    wordXYN op x y n &&& 0xF000 = op ++ (0 : BitVec 12) := by
  rw [wordXYN, show (0xF000 : Word) = (0xF : BitVec 4) ++ (0 : BitVec 12) from by decide, BitVec.and_append, and_F]
  simp

theorem wordXYN_mask_n (op : BitVec 4) (x y : RegIdx) (n : Nibble) :
    wordXYN op x y n &&& 0xF00F = op ++ ((0 : BitVec 4) ++ ((0 : BitVec 4) ++ BitVec.ofNat 4 n.val)) := by
  rw [wordXYN, show (0xF00F : Word) = (0xF : BitVec 4) ++ ((0 : BitVec 4) ++ ((0 : BitVec 4) ++ (0xF : BitVec 4)))
    from by decide, BitVec.and_append, BitVec.and_append, BitVec.and_append, and_F, and_F]
  simp

/-! ### One lemma per instruction -/

theorem sys (nnn : Addr12) : Statement (.sys nnn) := (wordN_mask _ _).trans rfl

theorem cls : Statement (.cls) := by unfold Statement; decide

theorem ret : Statement (.ret) := by unfold Statement; decide

theorem jp (nnn : Addr12) : Statement (.jp nnn) := (wordN_mask _ _).trans rfl

theorem call (nnn : Addr12) : Statement (.call nnn) := (wordN_mask _ _).trans rfl

theorem seImm (x : RegIdx) (kk : Byte) : Statement (.seImm x kk) := (wordXK_mask _ _ _).trans rfl

theorem sneImm (x : RegIdx) (kk : Byte) : Statement (.sneImm x kk) := (wordXK_mask _ _ _).trans rfl

theorem seReg (x : RegIdx) (y : RegIdx) : Statement (.seReg x y) := (wordXYN_mask _ _ _ _).trans rfl

theorem ldImm (x : RegIdx) (kk : Byte) : Statement (.ldImm x kk) := (wordXK_mask _ _ _).trans rfl

theorem addImm (x : RegIdx) (kk : Byte) : Statement (.addImm x kk) := (wordXK_mask _ _ _).trans rfl

theorem ldReg (x : RegIdx) (y : RegIdx) : Statement (.ldReg x y) := (wordXYN_mask_n _ _ _ _).trans rfl

theorem orReg (x : RegIdx) (y : RegIdx) : Statement (.orReg x y) := (wordXYN_mask_n _ _ _ _).trans rfl

theorem andReg (x : RegIdx) (y : RegIdx) : Statement (.andReg x y) := (wordXYN_mask_n _ _ _ _).trans rfl

theorem xorReg (x : RegIdx) (y : RegIdx) : Statement (.xorReg x y) := (wordXYN_mask_n _ _ _ _).trans rfl

theorem addReg (x : RegIdx) (y : RegIdx) : Statement (.addReg x y) := (wordXYN_mask_n _ _ _ _).trans rfl

theorem sub (x : RegIdx) (y : RegIdx) : Statement (.sub x y) := (wordXYN_mask_n _ _ _ _).trans rfl

theorem shr (x : RegIdx) (y : RegIdx) : Statement (.shr x y) := (wordXYN_mask_n _ _ _ _).trans rfl

theorem subn (x : RegIdx) (y : RegIdx) : Statement (.subn x y) := (wordXYN_mask_n _ _ _ _).trans rfl

theorem shl (x : RegIdx) (y : RegIdx) : Statement (.shl x y) := (wordXYN_mask_n _ _ _ _).trans rfl

theorem sneReg (x : RegIdx) (y : RegIdx) : Statement (.sneReg x y) := (wordXYN_mask _ _ _ _).trans rfl

theorem ldI (nnn : Addr12) : Statement (.ldI nnn) := (wordN_mask _ _).trans rfl

theorem jpV0 (nnn : Addr12) : Statement (.jpV0 nnn) := (wordN_mask _ _).trans rfl

theorem rnd (x : RegIdx) (kk : Byte) : Statement (.rnd x kk) := (wordXK_mask _ _ _).trans rfl

theorem drw (x : RegIdx) (y : RegIdx) (n : Nibble) : Statement (.drw x y n) := (wordXYN_mask _ _ _ _).trans rfl

theorem skp (x : RegIdx) : Statement (.skp x) := (wordXK_mask_kk _ _ _).trans rfl

theorem sknp (x : RegIdx) : Statement (.sknp x) := (wordXK_mask_kk _ _ _).trans rfl

theorem ldVxDt (x : RegIdx) : Statement (.ldVxDt x) := (wordXK_mask_kk _ _ _).trans rfl

theorem ldVxK (x : RegIdx) : Statement (.ldVxK x) := (wordXK_mask_kk _ _ _).trans rfl

theorem ldDtVx (x : RegIdx) : Statement (.ldDtVx x) := (wordXK_mask_kk _ _ _).trans rfl

theorem ldStVx (x : RegIdx) : Statement (.ldStVx x) := (wordXK_mask_kk _ _ _).trans rfl

theorem addIVx (x : RegIdx) : Statement (.addIVx x) := (wordXK_mask_kk _ _ _).trans rfl

theorem ldFVx (x : RegIdx) : Statement (.ldFVx x) := (wordXK_mask_kk _ _ _).trans rfl

theorem ldBVx (x : RegIdx) : Statement (.ldBVx x) := (wordXK_mask_kk _ _ _).trans rfl

theorem ldMemVx (x : RegIdx) : Statement (.ldMemVx x) := (wordXK_mask_kk _ _ _).trans rfl

theorem ldVxMem (x : RegIdx) : Statement (.ldVxMem x) := (wordXK_mask_kk _ _ _).trans rfl

theorem unrecognized (w : Word) : Statement (.unrecognized w) := BitVec.and_zero

end Sys2Proof.Laws.OpcodeRow
end

