-- ==== Sys2Proof/Laws/Step.lean ====
section
/-! SUPPORT. What a step can do, said once: the inversion of the frame step and of Execute (spec R80,
R270), and the forward form of each branch. -/

namespace Sys2Proof.Machine

/-! ### The poll -/

theorem State.poll_of_no_quit {s : State} (h : s.input.quit = false) : s.poll = s.takeKeys := by
  simp [State.poll, h]

theorem State.poll_of_quit {s : State} (h : s.input.quit = true) : s.poll = s.takeKeys.raise .quit := by
  simp [State.poll, h]

/-! ### Execute -/

/-- Everything Execute can do (R80): the fault of a fetch out of range, or the fetched instruction. -/
theorem execute_cases (s : State) :
    (0xFFE < s.pc.toNat ∧ execute s =
      .next (s.raise (.bounds (max s.pc.toNat 0x1000) (max s.pc.toNat 0x1000)))) ∨
    (s.pc.toNat ≤ 0xFFE ∧ execute s =
      exec (decode s.params (wordOfBytes (s.mem.read s.pc.toNat) (s.mem.read (s.pc.toNat + 1)))) s) := by
  rcases s.fetch_spec with ⟨h, hf⟩ | ⟨h, hf⟩
  · exact .inr ⟨h, by simp [execute, hf]⟩
  · exact .inl ⟨h, by simp [execute, hf]⟩

/-! ### The frame step -/

theorem step_of_stop {s : State} (h : s.stop = true) : step s = .fault .runEnded := by
  simp [step, frame, h]

theorem step_of_halted {s : State} (h : s.stop = false) (hh : s.poll.halted = true) :
    step s = .next s.poll.endRun.endFrame := by
  rw [step, frame, if_neg (by simp [h]), if_pos hh]

theorem step_of_running {s u : State} (h : s.stop = false) (hh : s.poll.halted = false)
    (hu : execute s.poll = .next u) : step s = .next u.finishFrame := by
  rw [step, frame, if_neg (by simp [h]), if_neg (by rw [hh]; decide), hu]

/-- Everything a step that answers a next state has done (R270). -/
theorem step_cases {s t : State} (h : step s = .next t) :
    s.stop = false ∧
      ((s.poll.halted = true ∧ t = s.poll.endRun.endFrame) ∨
       (s.poll.halted = false ∧ ∃ u, execute s.poll = .next u ∧ t = u.finishFrame)) := by
  cases hs : s.stop with
  | true => rw [step_of_stop hs] at h; cases h
  | false =>
    refine ⟨rfl, ?_⟩
    cases hh : s.poll.halted with
    | true => rw [step_of_halted hs hh] at h; cases h; exact .inl ⟨rfl, rfl⟩
    | false =>
      rw [step, frame, if_neg (by simp [hs]), if_neg (by rw [hh]; decide)] at h
      cases he : execute s.poll with
      | next u => rw [he] at h; cases h; exact .inr ⟨rfl, u, rfl, rfl⟩
      | fault r => rw [he] at h; cases h
      | refused r => rw [he] at h; cases h

end Sys2Proof.Machine
end

