-- ==== Sys2Proof/Tests/Slice0.lean ====
section
/-! SUPPORT. Tests: the words of the opcode map, the vectors of spec/95_test_vectors.md (each test names
its vector), and, for every statement with hypotheses, a state and operands that meet them together. -/

namespace Sys2Proof.Tests

open Sys2Proof.Machine Sys2Proof.Claims

/-! ### Helpers -/

/-- The configurations the tests use besides the default. -/
def strict : Params := { Params.default with decodeStrict := true }
def extra : Params := { Params.default with extraOps := true }
def stackFault : Params := { Params.default with stackOverflow := .fault }

/-- No key down. -/
def noKeys : Vector Bool 16 := Vector.replicate 16 false

/-- The inputs of a frame with these keys down, this draw and this choice, and no quit. -/
def inp (keys : Vector Bool 16) (r : Fin 255) (k : Fin 16) : FrameInput := ⟨keys, false, r, k⟩

/-- The reset state under a configuration. -/
def under (p : Params) : State := { State.reset with params := p }

/-- The word stored where the next fetch reads it. -/
def put (w : Word) (s : State) : State :=
  s.store s.pc.toNat [(bytesOfWord w).1, (bytesOfWord w).2]

/-- What `f` reads in the state after one step on the word. -/
def ran {α : Type} (w : Word) (s : State) (f : State → α) : Option α :=
  match step (put w s) with
  | .next t => some (f t)
  | .fault _ => none
  | .refused _ => none

/-- What `f` reads in the state after an instruction. -/
def did {α : Type} (i : Instr) (s : State) (f : State → α) : Option α :=
  match exec i s with
  | .next t => some (f t)
  | .fault _ => none
  | .refused _ => none

/-- The halt flag and the cause: all that a claim may read of a faulted state (R263). -/
def stopped (s : State) : Bool × Option Cause := (s.halted, s.cause)

/-- A running state whose next frame has a quit signal. -/
def quitting : State := { State.reset with inputs := [⟨noKeys, true, 0, 0⟩] }

/-- A state that has halted on an unrecognized word. -/
def haltedState : State := { State.reset with halted := true, cause := some (.unrecognized 0xFFFF) }

/-! ### WellFormed refuses an ill-formed term for each of its checks -/

theorem test_wf_sys_is_no_cls : WellFormed Params.default (.sys 0x0E0) = false := by decide
theorem test_wf_sys_is_no_ret_any_x : WellFormed Params.default (.sys 0xFEE) = false := by decide
theorem test_wf_sys_is_no_cls_strict : WellFormed strict (.sys 0x0E0) = false := by decide
theorem test_wf_sys_strict_keeps_1E0 : WellFormed strict (.sys 0x1E0) = true := by decide
theorem test_wf_subn_needs_extra_ops : WellFormed Params.default (.subn 1 2) = false := by decide
theorem test_wf_jpV0_needs_extra_ops : WellFormed Params.default (.jpV0 0x300) = false := by decide
theorem test_wf_unrecognized_no_instruction : WellFormed Params.default (.unrecognized 0x6A42) = false := by
  decide
theorem test_wf_unrecognized_9_strict_only : WellFormed Params.default (.unrecognized 0x912F) = false := by
  decide
theorem test_wf_unrecognized_extra_word : WellFormed extra (.unrecognized 0x8127) = false := by decide

/-! ### Every constructor's word, written out from the opcode map (R85, R88) -/

theorem test_decode_sys : decode Params.default 0x0123 = .sys 0x123 := by decide
theorem test_decode_cls : decode Params.default 0x00E0 = .cls := by decide
theorem test_decode_ret : decode Params.default 0x00EE = .ret := by decide
theorem test_decode_jp : decode Params.default 0x1ABC = .jp 0xABC := by decide
theorem test_decode_call : decode Params.default 0x2DEF = .call 0xDEF := by decide
theorem test_decode_seImm : decode Params.default 0x3A57 = .seImm 0xA 0x57 := by decide
theorem test_decode_sneImm : decode Params.default 0x4B9C = .sneImm 0xB 0x9C := by decide
theorem test_decode_seReg : decode Params.default 0x5120 = .seReg 1 2 := by decide
theorem test_decode_ldImm : decode Params.default 0x6A42 = .ldImm 0xA 0x42 := by decide
theorem test_decode_addImm : decode Params.default 0x7F01 = .addImm 0xF 0x01 := by decide
theorem test_decode_ldReg : decode Params.default 0x8310 = .ldReg 3 1 := by decide
theorem test_decode_orReg : decode Params.default 0x8121 = .orReg 1 2 := by decide
theorem test_decode_andReg : decode Params.default 0x8AB2 = .andReg 0xA 0xB := by decide
theorem test_decode_xorReg : decode Params.default 0x8F03 = .xorReg 0xF 0 := by decide
theorem test_decode_addReg : decode Params.default 0x8124 = .addReg 1 2 := by decide
theorem test_decode_sub : decode Params.default 0x8345 = .sub 3 4 := by decide
theorem test_decode_shr : decode Params.default 0x8126 = .shr 1 2 := by decide
theorem test_decode_shl : decode Params.default 0x812E = .shl 1 2 := by decide
theorem test_decode_sneReg : decode Params.default 0x9CD0 = .sneReg 0xC 0xD := by decide
theorem test_decode_ldI : decode Params.default 0xA2F0 = .ldI 0x2F0 := by decide
theorem test_decode_rnd : decode Params.default 0xC30F = .rnd 3 0x0F := by decide
theorem test_decode_drw : decode Params.default 0xD125 = .drw 1 2 5 := by decide
theorem test_decode_skp : decode Params.default 0xE19E = .skp 1 := by decide
theorem test_decode_sknp : decode Params.default 0xE1A1 = .sknp 1 := by decide
theorem test_decode_ldVxDt : decode Params.default 0xF207 = .ldVxDt 2 := by decide
theorem test_decode_ldVxK : decode Params.default 0xF10A = .ldVxK 1 := by decide
theorem test_decode_ldDtVx : decode Params.default 0xF015 = .ldDtVx 0 := by decide
theorem test_decode_ldStVx : decode Params.default 0xF818 = .ldStVx 8 := by decide
theorem test_decode_addIVx : decode Params.default 0xF51E = .addIVx 5 := by decide
theorem test_decode_ldFVx : decode Params.default 0xF329 = .ldFVx 3 := by decide
theorem test_decode_ldBVx : decode Params.default 0xF633 = .ldBVx 6 := by decide
theorem test_decode_ldMemVx : decode Params.default 0xF255 = .ldMemVx 2 := by decide
theorem test_decode_ldVxMem : decode Params.default 0xF165 = .ldVxMem 1 := by decide
theorem test_decode_unrecognized : decode Params.default 0xFFFF = .unrecognized 0xFFFF := by decide
theorem test_decode_subn : decode extra 0x8127 = .subn 1 2 := by decide
theorem test_decode_jpV0 : decode extra 0xB123 = .jpV0 0x123 := by decide

/-! The decoder vectors DEC-1 to DEC-17 where the three configurations differ, and the gaps. -/

/-- DEC-2 -/
theorem test_DEC_2 :
    decode Params.default 0x01E0 = .cls ∧ decode strict 0x01E0 = .sys 0x1E0 ∧ decode extra 0x01E0 = .cls := by decide
/-- DEC-4 -/
theorem test_DEC_4 :
    decode Params.default 0x0FEE = .ret ∧ decode strict 0x0FEE = .sys 0xFEE ∧ decode extra 0x0FEE = .ret := by decide
/-- DEC-1, DEC-3 -/
theorem test_DEC_1_3 :
    decode strict 0x00E0 = .cls ∧ decode strict 0x00EE = .ret := by decide
/-- DEC-5, DEC-6 -/
theorem test_DEC_5_6 :
    decode Params.default 0x0000 = .sys 0 ∧ decode strict 0x00FF = .sys 0x0FF := by decide
/-- DEC-8 -/
theorem test_DEC_8 :
    decode Params.default 0x5121 = .seReg 1 2 ∧ decode strict 0x5121 = .unrecognized 0x5121 ∧
      decode extra 0x5121 = .seReg 1 2 := by decide
/-- DEC-9 -/
theorem test_DEC_9 :
    decode Params.default 0x912F = .sneReg 1 2 ∧ decode strict 0x912F = .unrecognized 0x912F := by decide
/-- DEC-10 -/
theorem test_DEC_10 :
    decode Params.default 0x8127 = .unrecognized 0x8127 ∧ decode strict 0x8127 = .unrecognized 0x8127 := by decide
/-- DEC-11 -/
theorem test_DEC_11 :
    decode extra 0x8128 = .unrecognized 0x8128 ∧ decode extra 0x812F = .unrecognized 0x812F := by decide
/-- DEC-13 -/
theorem test_DEC_13 :
    decode Params.default 0xB123 = .unrecognized 0xB123 ∧ decode strict 0xB123 = .unrecognized 0xB123 := by decide
/-- DEC-15 -/
theorem test_DEC_15 :
    decode extra 0xE19F = .unrecognized 0xE19F ∧ decode extra 0xE100 = .unrecognized 0xE100 := by decide
/-- DEC-17 -/
theorem test_DEC_17 :
    decode extra 0xF100 = .unrecognized 0xF100 ∧ decode extra 0xF108 = .unrecognized 0xF108 ∧
      decode extra 0xF130 = .unrecognized 0xF130 ∧ decode extra 0xF175 = .unrecognized 0xF175 := by decide
/-- R60: the byte at the lower address is the high byte. -/
theorem test_bytes_are_big_endian :
    decodeBytes Params.default [0x6A, 0x42, 0x99] = .ok (.ldImm 0xA 0x42, [0x99]) := by decide
/-- The host's view of three rows, one of them under `EXTRA_OPS`. -/
theorem test_host_words :
    decodeTableWord 16 0x6A42 = some (.ldImm 0xA 0x42) ∧ decodeTableWord 16 0x8127 = some (.subn 1 2) ∧
      decodeTableWord 16 0x812F = some (.unrecognized 0x812F) := by decide

/-! ### Control flow -/

/-- CF-1 -/
theorem test_CF_1 :
    ran 0x0123 State.reset (fun t => (t.pc, t.halted)) = some (0x202, false) := by decide
/-- CF-3 -/
theorem test_CF_3 :
    ran 0x1234 State.reset (·.pc) = some 0x234 := by decide
/-- CF-4 -/
theorem test_CF_4 :
    ran 0x1301 State.reset (·.pc) = some 0x301 := by decide
/-- CF-10 -/
theorem test_CF_10 :
    ran 0x2300 { State.reset with sp := 15, pc := 0x240 } (fun t => (t.stackAt 15, t.sp, t.pc)) =
      some (0x240, 0, 0x300) := by decide
/-- CF-8 -/
theorem test_CF_8 :
    ran 0x00EE { State.reset with sp := 1, stack := State.reset.stack.set 0 0x200, pc := 0x302 }
      (fun t => (t.sp, t.pc, t.stackAt 0)) = some (0, 0x202, 0x200) := by decide
/-- CF-9 -/
theorem test_CF_9 :
    ran 0x00EE State.reset (fun t => (t.sp, t.pc)) = some (15, 2) := by decide
/-- CF-11, CF-12 -/
theorem test_CF_11_12 :
    ran 0x2300 { under stackFault with sp := 15, pc := 0x240 } stopped = some (true, some (.stack 0x240)) ∧
      ran 0x00EE (under stackFault) stopped = some (true, some (.stack 0x200)) := by decide
/-- CF-14 -/
theorem test_CF_14 :
    ran 0xB300 ((under extra).setV 0 0x10) (·.pc) = some 0x310 := by decide
/-- CF-15 -/
theorem test_CF_15 :
    ran 0xBFFF ((under extra).setV 0 0xFF) (·.pc) = some 0x10FE := by decide
/-- CF-15, the next fetch -/
theorem test_CF_15_fetch :
    ran 0x0000 { State.reset with pc := 0x10FE } stopped = some (true, some (.bounds 0x10FE 0x10FE)) := by decide
/-- CF-6, the next fetch -/
theorem test_CF_6_fetch :
    ran 0x0000 { State.reset with pc := 0xFFF } stopped = some (true, some (.bounds 0x1000 0x1000)) := by decide

/-! ### Register and immediate transfer -/

/-- TR-1 -/
theorem test_TR_1 :
    ran 0x6A42 State.reset (fun t => (t.getV 0xA, t.pc)) = some (0x42, 0x202) := by decide
/-- TR-3 -/
theorem test_TR_3 :
    ran 0x8130 (State.reset.setV 3 7) (fun t => (t.getV 1, t.getV 3)) = some (7, 7) := by decide
/-- TR-5 -/
theorem test_TR_5 :
    ran 0xA2F0 { State.reset with i := 0x1234 } (·.i) = some 0x2F0 := by decide
/-- TR-6 -/
theorem test_TR_6 :
    ran 0x7101 ((State.reset.setV 1 0xFF).setV 0xF 0x55) (fun t => (t.getV 1, t.getV 0xF)) = some (0, 0x55) := by decide
/-- TR-7 -/
theorem test_TR_7 :
    ran 0x7F01 (State.reset.setV 0xF 0xFF) (·.getV 0xF) = some 0 := by decide

/-! ### Arithmetic -/

/-- ALU-1 -/
theorem test_ALU_1 :
    ran 0x8121 (((State.reset.setV 1 0x0F).setV 2 0xF0).setV 0xF 0x55) (fun t => (t.getV 1, t.getV 0xF)) = some (0xFF, 0x55) := by decide
/-- ALU-20 -/
theorem test_ALU_20 :
    ran 0x8F01 ((State.reset.setV 0xF 1).setV 0 0x10) (·.getV 0xF) = some 0x11 := by decide
/-- ALU-2 -/
theorem test_ALU_2 :
    ran 0x8122 ((State.reset.setV 1 0x3C).setV 2 0x0F) (fun t => (t.getV 1, t.getV 0xF)) = some (0x0C, 0) := by decide
/-- ALU-3 -/
theorem test_ALU_3 :
    ran 0x8123 ((State.reset.setV 1 0x3C).setV 2 0x0F) (fun t => (t.getV 1, t.getV 0xF)) = some (0x33, 0) := by decide
/-- ALU-5 -/
theorem test_ALU_5 :
    ran 0x8124 ((State.reset.setV 1 0xFF).setV 2 1) (fun t => (t.getV 1, t.getV 0xF)) = some (0, 1) := by decide
/-- ALU-17 -/
theorem test_ALU_17 :
    ran 0x8F14 ((State.reset.setV 0xF 0xFF).setV 1 1) (·.getV 0xF) = some 1 := by decide
/-- ALU-7 -/
theorem test_ALU_7 :
    ran 0x8125 ((State.reset.setV 1 5).setV 2 0xA) (fun t => (t.getV 1, t.getV 0xF)) = some (0xFB, 0) := by decide
/-- ALU-8 -/
theorem test_ALU_8 :
    ran 0x8125 (((State.reset.setV 1 0x33).setV 2 0x33).setV 0xF 1) (fun t => (t.getV 1, t.getV 0xF)) = some (0, 0) := by decide
/-- ALU-11 -/
theorem test_ALU_11 :
    ran 0x8106 (State.reset.setV 1 0xFF) (fun t => (t.getV 1, t.getV 0xF)) = some (0x7F, 0) := by decide
/-- ALU-21 -/
theorem test_ALU_21 :
    ran 0x8126 ((State.reset.setV 1 4).setV 2 0xFF) (fun t => (t.getV 1, t.getV 0xF)) = some (2, 0) := by decide
/-- ALU-14 -/
theorem test_ALU_14 :
    ran 0x810E (State.reset.setV 1 0x80) (fun t => (t.getV 1, t.getV 0xF)) = some (0, 0) := by decide
/-- ALU-15 -/
theorem test_ALU_15 :
    ran 0x810E (State.reset.setV 1 0x40) (fun t => (t.getV 1, t.getV 0xF)) = some (0x80, 1) := by decide
/-- ALU-22 -/
theorem test_ALU_22 :
    ran 0x8127 (((under extra).setV 1 5).setV 2 0xA) (fun t => (t.getV 1, t.getV 0xF)) = some (5, 1) := by decide
/-- ALU-23 -/
theorem test_ALU_23 :
    ran 0x8117 ((under extra).setV 1 0x22) (fun t => (t.getV 1, t.getV 0xF)) = some (0, 0) := by decide

/-! ### Skips -/

/-- SK-1 -/
theorem test_SK_1 :
    ran 0x3210 (State.reset.setV 2 0x10) (·.pc) = some 0x204 := by decide
/-- SK-2 -/
theorem test_SK_2 :
    ran 0x3211 (State.reset.setV 2 0x10) (·.pc) = some 0x202 := by decide
/-- SK-3 -/
theorem test_SK_3 :
    ran 0x4210 (State.reset.setV 2 0x10) (·.pc) = some 0x202 := by decide
/-- SK-4 -/
theorem test_SK_4 :
    ran 0x4211 (State.reset.setV 2 0x10) (·.pc) = some 0x204 := by decide
/-- SK-5 -/
theorem test_SK_5 :
    ran 0x5120 ((State.reset.setV 1 0x33).setV 2 0x33) (·.pc) = some 0x204 := by decide
/-- SK-6 -/
theorem test_SK_6 :
    ran 0x5120 ((State.reset.setV 1 0x33).setV 2 0x34) (·.pc) = some 0x202 := by decide
/-- SK-8 -/
theorem test_SK_8 :
    ran 0x9120 ((State.reset.setV 1 0x33).setV 2 0x34) (·.pc) = some 0x204 := by decide
/-- SK-9 -/
theorem test_SK_9 :
    ran 0x9110 (State.reset.setV 1 0x33) (·.pc) = some 0x202 := by decide

/-! ### Memory block transfer and index -/

/-- MI-1 -/
theorem test_MI_1 :
    ran 0xF255 ((((({ State.reset with i := 0x300 } : State).setV 0 1).setV 1 2).setV 2 3).setV 3 4) (fun t => (t.mem.read 0x300, t.mem.read 0x301, t.mem.read 0x302, t.mem.read 0x303, t.i)) =
      some (1, 2, 3, 0, 0x300) := by decide
/-- MI-4; and a range whose last address (R190) is not its first one out of memory (R262). -/
theorem test_MI_4 :
    ran 0xFF55 { State.reset with i := 0xFF1 } stopped = some (true, some (.bounds 0x1000 0x1000)) ∧
      ran 0xFF55 { State.reset with i := 0xFF5 } stopped = some (true, some (.bounds 0x1004 0x1000)) := by decide
/-- MI-5 -/
theorem test_MI_5 :
    ran 0xF265 (State.store { State.reset with i := 0x300 } 0x300 [7, 8, 9, 10])
      (fun t => (t.getV 0, t.getV 1, t.getV 2, t.getV 3, t.i)) = some (7, 8, 9, 0, 0x300) := by decide
/-- MI-7 -/
theorem test_MI_7 :
    ran 0xF465 State.reset (fun t => (t.getV 0, t.getV 1, t.getV 4, t.getV 5)) = some (0xF0, 0x90, 0xF0, 0) := by decide
/-- MI-9 -/
theorem test_MI_9 :
    ran 0xF51E (State.setV { State.reset with i := 0xFFF } 5 1) (fun t => (t.i, t.halted)) = some (0x1000, false) := by decide
/-- MI-11 -/
theorem test_MI_11 :
    ran 0xF51E (State.setV { State.reset with i := 0xFFFF } 5 1) stopped =
      some (true, some (.indexOverflow 0x10000)) := by decide
/-- MI-12 -/
theorem test_MI_12 :
    ran 0xF329 (State.reset.setV 3 0xA) (·.i) = some 0x32 := by decide
/-- MI-14 -/
theorem test_MI_14 :
    ran 0xF329 (State.reset.setV 3 0xFF) (·.i) = some 0x4FB := by decide
/-- MI-16 -/
theorem test_MI_16 :
    ran 0xF633 (({ State.reset with i := 0x300 } : State).setV 6 254) (fun t => (t.mem.read 0x300, t.mem.read 0x301, t.mem.read 0x302, t.mem.read 0x303, t.i)) = some (2, 5, 4, 0, 0x300) := by decide
/-- MI-21 -/
theorem test_MI_21 :
    ran 0xF633 { State.reset with i := 0xFFE } stopped = some (true, some (.bounds 0x1000 0x1000)) := by decide

/-! ### Randomness, input and timers -/

/-- RIT-1 -/
theorem test_RIT_1 :
    ran 0xC30F { State.reset with inputs := [inp noKeys 0xB7 0] } (·.getV 3) = some 7 := by decide
/-- RIT-2 -/
theorem test_RIT_2 :
    ran 0xC3FF { State.reset with inputs := [inp noKeys 0xFE 0] } (·.getV 3) = some 0xFE := by decide
/-- RIT-4 -/
theorem test_RIT_4 :
    ran 0xE49E (State.setV { State.reset with inputs := [inp (noKeys.set 7 true) 0 0] } 4 7) (·.pc) = some 0x204 := by decide
/-- RIT-8 -/
theorem test_RIT_8 :
    ran 0xE49E (State.reset.setV 4 0x10) stopped = some (true, some (.keyIndex 0x10)) := by decide
/-- RIT-6 -/
theorem test_RIT_6 :
    ran 0xE4A1 (State.reset.setV 4 7) (·.pc) = some 0x204 := by decide
/-- RIT-7 -/
theorem test_RIT_7 :
    ran 0xE4A1 (State.setV { State.reset with inputs := [inp (noKeys.set 7 true) 0 0] } 4 7) (·.pc) = some 0x202 := by decide
/-- RIT-10 -/
theorem test_RIT_10 :
    ran 0xF10A (State.reset.setV 1 0x33) (fun t => (t.pc, t.getV 1)) = some (0x200, 0x33) := by decide
/-- RIT-12 -/
theorem test_RIT_12 :
    ran 0xF10A ({ under { Params.default with keyPick := .lowest } with
      inputs := [inp ((noKeys.set 2 true).set 9 true) 0 9] }) (fun t => (t.pc, t.getV 1)) = some (0x202, 2) := by decide
/-- RIT-13 -/
theorem test_RIT_13 :
    ran 0xF207 { State.reset with dt := 0x3C } (fun t => (t.getV 2, t.dt)) = some (0x3C, 0x3B) := by decide
/-- RIT-14 -/
theorem test_RIT_14 :
    ran 0xF015 (State.reset.setV 0 3) (·.dt) = some 2 := by decide
/-- RIT-16 -/
theorem test_RIT_16 :
    ran 0xF018 (State.reset.setV 0 1) (fun t => (t.st, t.toneOut)) = some (0, .stop) := by decide
/-- RIT-17 -/
theorem test_RIT_17 :
    ran 0xF018 (State.reset.setV 0 2) (fun t => (t.st, t.toneOut)) = some (1, .start) := by decide

/-! ### Display -/

/-- DSP-1: a set cell is cleared and the buffer is rendered. -/
theorem test_DSP_1 :
    ran 0x00E0 { State.reset with disp := State.reset.disp.flip 3 5 }
      (fun t => (t.disp.cell 3 5, t.dirty, t.renderOut.isSome, t.pc)) = some (false, false, true, 0x202) := by decide
/-- DSP-2 -/
theorem test_DSP_2 :
    ran 0x00E0 (under { Params.default with clsDirty := false }) (·.renderOut) = some none := by decide
/-- DSP-10 -/
theorem test_DSP_10 :
    ran 0xD011 (State.store { State.reset with i := 0x300, disp := State.reset.disp.flip 0 0 } 0x300 [0xC0])
      (fun t => (t.disp.cell 0 0, t.disp.cell 0 1, t.getV 0xF)) = some (false, true, 1) := by decide
/-- DSP-11: the bottom edge wraps. -/
theorem test_DSP_11 :
    ran 0xD012 (State.store (State.setV { State.reset with i := 0x300 } 1 31) 0x300 [0x80, 0x80])
      (fun t => (t.disp.cell 31 0, t.disp.cell 0 0, t.getV 0xF)) = some (true, true, 0) := by decide

/-! ### Unrecognized words, the frame and reset -/

/-- UNR-1 -/
theorem test_UNR_1 :
    ran 0xFFFF State.reset stopped = some (true, some (.unrecognized 0xFFFF)) := by decide
/-- UNR-5 -/
theorem test_UNR_5 :
    ran 0xB000 State.reset stopped = some (true, some (.unrecognized 0xB000)) := by decide
/-- FR-1 -/
theorem test_FR_1 :
    ran 0x6005 { State.reset with dt := 5, inputs := [⟨noKeys, true, 0, 0⟩] }
      (fun t => (t.halted, t.cause, t.stop, t.dt)) = some (true, some .quit, true, 5) := by decide
/-- FR-3: the first cause stands. -/
theorem test_FR_3 :
    ran 0x6005 { haltedState with inputs := quitting.inputs } (fun t => (t.cause, t.stop)) = some (some (.unrecognized 0xFFFF), true) := by decide
/-- FR-7: no key survives the poll. -/
theorem test_FR_7 :
    ran 0x6000 { State.reset with key := noKeys.set 5 true } (·.key) = some noKeys := by decide
/-- RST-1 -/
theorem test_RST_1 :
    (State.boot Params.default standardFont [0x00, 0xE0]).map (fun t => (t.mem.read 0x200, t.mem.read 0x201, t.mem.read 0, t.pc)) =
      some (0x00, 0xE0, 0xF0, 0x200) := by decide
/-- R47: the rows of glyphs 7, A and F. -/
theorem test_font_rows :
    Config.font.length = 80 ∧ (Config.font.drop 35).take 5 = [0xF0, 0x10, 0x20, 0x40, 0x40] ∧
      (Config.font.drop 50).take 5 = [0xF0, 0x90, 0xF0, 0x90, 0x90] ∧
      Config.font.drop 75 = [0xF0, 0x80, 0xF0, 0x80, 0x80] := by decide
theorem test_RST_3 : State.boot Params.default standardFont (List.replicate 0xE01 0) = none :=
  if_neg (by rw [List.length_replicate]; decide)
theorem test_reset_inv : State.reset.mem.wf ∧ State.reset.causeAgrees := by decide

/-! ### Witnesses: for every statement with hypotheses, values that meet them together -/

theorem witness_DecodeOfEncode :
    WellFormed Params.default (.sys 0xFFF) = true ∧ WellFormed strict (.sys 0xFEE) = true ∧
      WellFormed extra (.subn 15 15) = true ∧ WellFormed extra (.jpV0 0xFFF) = true ∧
      WellFormed strict (.unrecognized 0x500F) = true ∧ WellFormed Params.default (.drw 15 15 15) = true :=
  by decide
theorem witness_StrictDecodeKeepsEveryBit :
    strict.decodeStrict = true :=
  rfl
/-- Family 0x0 under both settings at both ends, family 0x5 and family 0x9. -/
theorem witness_DecodeStrictFamilies :
    (0x00E0#16).toNat / 0x1000 = 0x0 ∧ (0x0FFF#16).toNat / 0x1000 = 0x0 ∧ strict.decodeStrict = true ∧
      Params.default.decodeStrict = false ∧ (0x5000#16).toNat / 0x1000 = 0x5 ∧
      (0x5FFF#16).toNat / 0x1000 = 0x5 ∧ (0x9000#16).toNat / 0x1000 = 0x9 ∧ (0x9FFF#16).toNat / 0x1000 = 0x9 :=
  by decide
theorem witness_ExtraOpsDecode :
    ((0x8FF7#16).toNat / 0x1000 = 0x8 ∧ (0x8FF7#16).toNat % 16 = 7) ∧ (0xBFFF#16).toNat / 0x1000 = 0xB :=
  by decide
theorem witness_UnrecognizedSpace :
    decode Params.default 0xBFFF = .unrecognized 0xBFFF :=
  by decide
/-- The last address a fetch reads from, an odd one, and the first it does not. -/
theorem witness_FetchIsBigEndian :
    ({ State.reset with pc := 0xFFE } : State).pc.toNat ≤ 0xFFE ∧
      ({ State.reset with pc := 0x301 } : State).pc.toNat ≤ 0xFFE ∧
      ({ State.reset with pc := 0xFFF } : State).pc.toNat > 0xFFE :=
  by decide
/-- At reset, and at the last address a fetch reads from. -/
theorem witness_StepRunsFetchedInstruction :
    (reachesExecute (put 0x6A42 State.reset) ∧ fetches (put 0x6A42 State.reset) (.ldImm 0xA 0x42) ∧
      ∃ u, exec (.ldImm 0xA 0x42) (put 0x6A42 State.reset).takeKeys = .next u) ∧
      reachesExecute { State.reset with pc := 0xFFE } ∧ fetches { State.reset with pc := 0xFFE } (.sys 0) :=
  ⟨⟨by unfold reachesExecute; decide, by unfold fetches; decide, _, rfl⟩, by unfold reachesExecute; decide,
    by unfold fetches; decide⟩
/-- Both kinds of recorded address. -/
theorem witness_FetchOutOfRangeFaults :
    (reachesExecute { State.reset with pc := 0xFFF } ∧ ({ State.reset with pc := 0xFFF } : State).pc.toNat = 0xFFF) ∧
      reachesExecute { State.reset with pc := 0x1000 } ∧
      ({ State.reset with pc := 0x1000 } : State).pc.toNat > 0xFFF :=
  by unfold reachesExecute; decide
/-- With no cause recorded, and with one (a state no run reaches). -/
theorem witness_QuitEndsRun :
    (quitting.stop = false ∧ quitting.running ∧ quitting.input.quit = true ∧ quitting.cause = none) ∧
      ({ quitting with cause := some .quit } : State).running ∧
      ({ quitting with cause := some .quit } : State).cause = some .quit :=
  by decide
theorem witness_HaltCheckEndsRun :
    haltedState.stop = false ∧ haltedState.halted = true ∧ haltedState.causeAgrees :=
  by decide
theorem witness_EndedRunTakesNoStep :
    ({ State.reset with stop := true } : State).stop = true :=
  rfl
/-- A draw, and an instruction that is neither a draw nor a clear. -/
theorem witness_RenderOnlyAfterDrawOrClear :
    (reachesExecute (put 0xD001 State.reset) ∧ fetches (put 0xD001 State.reset) (.drw 0 0 1) ∧
      (put 0xD001 State.reset).dirty = false ∧ ∃ t, step (put 0xD001 State.reset) = .next t ∧ t.running) ∧
      reachesExecute (put 0x6000 State.reset) ∧ fetches (put 0x6000 State.reset) (.ldImm 0 0) ∧
      (put 0x6000 State.reset).dirty = false ∧ ∃ t, step (put 0x6000 State.reset) = .next t ∧ t.running :=
  ⟨⟨by unfold reachesExecute; decide, by unfold fetches; decide, rfl, _, rfl, rfl⟩,
    by unfold reachesExecute; decide, by unfold fetches; decide, rfl, _, rfl, rfl⟩
/-- One state for each clause. -/
theorem witness_TimerWriteTicksInItsFrame :
    (reachesExecute (put 0xF015 State.reset) ∧ fetches (put 0xF015 State.reset) (.ldDtVx 0)) ∧
      (reachesExecute (put 0xFF18 State.reset) ∧ fetches (put 0xFF18 State.reset) (.ldStVx 15)) ∧
      reachesExecute (put 0xF107 State.reset) ∧ fetches (put 0xF107 State.reset) (.ldVxDt 1) :=
  by unfold reachesExecute fetches; decide
theorem witness_KeyWaitReExecutes :
    reachesExecute (put 0xF10A State.reset) ∧ fetches (put 0xF10A State.reset) (.ldVxK 1) ∧
      ∀ k : Fin 16, (put 0xF10A State.reset).input.keys[k.val] = false :=
  by unfold reachesExecute fetches; decide
theorem witness_MemoryStaysCanonical :
    State.reset.mem.wf ∧ ∃ t, step State.reset = .next t :=
  ⟨by decide, _, rfl⟩
/-- At reset and at the bound itself, after a skip from the last fetchable address. -/
theorem witness_PcStaysBounded :
    (State.reset.pcBounded ∧ ∃ t, step State.reset = .next t ∧ t.running) ∧
      (put 0x3000 { State.reset with pc := 0xFFE }).pcBounded ∧
      ∃ t, step (put 0x3000 { State.reset with pc := 0xFFE }) = .next t ∧ t.running ∧ t.pc.toNat = 0x1002 :=
  ⟨⟨by decide, _, rfl, rfl⟩, by decide, _, rfl, rfl, by decide⟩
theorem witness_CauseAgreesWithHalted :
    haltedState.causeAgrees ∧ ∃ t, step haltedState = .next t :=
  ⟨by decide, _, rfl⟩
theorem witness_HaltedIsTerminal :
    haltedState.halted = true ∧ haltedState.cause = some (.unrecognized 0xFFFF) ∧
      ∃ t, step haltedState = .next t :=
  ⟨rfl, rfl, _, rfl⟩
theorem witness_DisplayBoundsUnreachable :
    (∃ t, step State.reset = .next t) ∧ ∀ r c, State.reset.cause ≠ some (.displayBounds r c) :=
  ⟨⟨_, rfl⟩, fun _ _ h => by cases h⟩
/-- The longest image and the shortest that is too long. -/
theorem witness_BootLoadsImage :
    (List.replicate 0xE00 (0 : Byte)).length ≤ 0xE00 ∧ (List.replicate 0xE01 (0 : Byte)).length > 0xE00 :=
  by simp only [List.length_replicate]; decide
theorem witness_ParamsNeverChange :
    (∃ t, exec (.ldImm 1 2) State.reset = .next t) ∧ ∃ t, step State.reset = .next t :=
  ⟨⟨_, rfl⟩, _, rfl⟩
/-- Each piece of state changes under one of its writers. -/
theorem witness_OnlyNamedWritersWrite :
    did (.ldImm 1 2) State.reset (fun t => decide (t.getV 1 ≠ State.reset.getV 1 ∧ t.running)) = some true ∧
      did (.ldI 5) State.reset (fun t => decide (t.i ≠ State.reset.i ∧ t.running)) = some true ∧
      did (.call 5) State.reset (fun t => decide (t.sp ≠ 0 ∧ t.stack ≠ State.reset.stack ∧ t.running)) = some true ∧
      did (.ldDtVx 0) (State.reset.setV 0 1) (fun t => decide (t.dt ≠ 0 ∧ t.running)) = some true ∧
      did (.ldStVx 0) (State.reset.setV 0 1) (fun t => decide (t.st ≠ 0 ∧ t.running)) = some true ∧
      did (.drw 0 0 1) State.reset (fun t => decide (t.disp.cell 0 0 ≠ false ∧ t.dirty ≠ false ∧ t.running)) =
        some true ∧
      did (.ldMemVx 0) State.reset (fun t => decide (t.mem.cells ≠ [] ∧ t.running)) = some true :=
  by decide
-- `RET` at reset moves SP too, and the reset memory is the empty list of cells.
theorem witness_PcAdvancesByTwo :
    State.reset.running ∧ ∃ t, exec (.ldImm 1 2) State.reset = .next t ∧ t.running :=
  ⟨rfl, _, rfl, rfl⟩
theorem witness_OnlyListedInstructionsFault :
    State.reset.running ∧ ∃ t, exec (.unrecognized 0xFFFF) State.reset = .next t ∧ t.halted = true :=
  ⟨rfl, _, rfl, rfl⟩
theorem witness_InputsReachOnlyTheirReaders :
    (∃ t, exec (.addReg 1 2) State.reset = .next t ∧ t.running) ∧ (∀ x kk, Instr.addReg 1 2 ≠ .rnd x kk) ∧
      ∀ x, Instr.addReg 1 2 ≠ .skp x ∧ Instr.addReg 1 2 ≠ .sknp x ∧ Instr.addReg 1 2 ≠ .ldVxK x :=
  ⟨⟨_, rfl, rfl⟩, by simp, by simp⟩
/-- `wrap` at the top of the stack, and `fault` one below it. -/
theorem witness_CallPushesAndJumps :
    ({ State.reset with sp := 15 } : State).params.stackOverflow = .wrap ∧
      ({ under stackFault with sp := 14 } : State).sp ≠ 15 ∧
      (under stackFault).params.stackOverflow = .fault ∧ ({ under stackFault with sp := 15 } : State).sp = 15 :=
  by decide
theorem witness_RetPopsAndResumes :
    ({ State.reset with sp := 0 } : State).params.stackOverflow = .wrap ∧
      ({ under stackFault with sp := 1 } : State).sp ≠ 0 ∧
      (under stackFault).params.stackOverflow = .fault ∧ (under stackFault).sp = 0 :=
  by decide
theorem witness_CallThenRetResumes :
    ({ State.reset with sp := 15 } : State).params.stackOverflow = .wrap ∧
      ∃ t, exec (.call 0xFFF) { State.reset with sp := 15 } = .next t :=
  ⟨rfl, _, rfl⟩

/-- Reset with `I` at `a` and V5 = 1. -/
def withI (a : Word) : State := { State.reset.setV 5 1 with i := a }

/-- The last byte of memory is stored to, by one register and by sixteen. -/
theorem witness_StoreRegisters :
    (withI 0xFFF).mem.wf ∧ (withI 0xFFF).i.toNat + (0 : RegIdx).val ≤ 0xFFF ∧ (withI 0xFF0).mem.wf ∧
      (withI 0xFF0).i.toNat + (15 : RegIdx).val ≤ 0xFFF :=
  by decide
theorem witness_LoadRegisters :
    (withI 0xFF0).i.toNat + (15 : RegIdx).val ≤ 0xFFF :=
  by decide
/-- The largest sum that fits; `wrap16`; the smallest sum that does not fit, under `fault`. -/
theorem witness_IndexAddition :
    (withI 0xFFFE).i.toNat + ((withI 0xFFFE).getV 5).toNat = 0xFFFF ∧
      (under { Params.default with iOverflow := .wrap16 }).params.iOverflow = .wrap16 ∧
      (withI 0xFFFF).params.iOverflow = .fault ∧ (withI 0xFFFF).i.toNat + ((withI 0xFFFF).getV 5).toNat = 0x10000 :=
  by decide
theorem witness_StoreDecimalDigits :
    (withI 0xFFD).mem.wf ∧ (withI 0xFFD).i.toNat + 2 = 0xFFF :=
  by decide
/-- The first address out of range, for each clause. -/
theorem witness_DataOutOfRangeFaults :
    (withI 0xFF1).i.toNat + (15 : RegIdx).val = 0x1000 ∧ (withI 0xFFE).i.toNat + 2 = 0x1000 ∧
      ¬ spriteFits (withI 0xFFE) 3 ∧ ¬ spriteFits (withI 0x1000) 1 :=
  by unfold spriteFits; decide
/-- F155 at 0x200 stores over the word after it. -/
theorem witness_StoredBytesAreFetched :
    (withI 0x202).mem.wf ∧ (withI 0x202).i.toNat + (1 : RegIdx).val ≤ 0xFFF ∧
      (1 : RegIdx).val = (0 : RegIdx).val + 1 ∧ ∃ t, exec (.ldMemVx 1) (withI 0x202) = .next t ∧
        t.pc.toNat = (withI 0x202).i.toNat + (0 : RegIdx).val :=
  ⟨by decide, by decide, by decide, _, rfl, by decide⟩
/-- The largest byte a draw gives. -/
theorem witness_RandomByteIsFree :
    254 ≤ 254 :=
  by decide
/-- The last key, and the first value that is no key. -/
theorem witness_KeySkips :
    ((State.reset.setV 4 0xF).getV 4).toNat = (15 : Fin 16).val ∧
      ((State.reset.setV 4 0x10).getV 4).toNat = 16 :=
  by decide
/-- No key down, and the last key down. -/
theorem witness_KeyWaitStoresAKeyDown :
    (∀ k : Fin 16, State.reset.key[k.val] = false) ∧
      ∃ k : Fin 16, ({ State.reset with key := noKeys.set 15 true } : State).key[k.val] = true :=
  by decide
/-- The clause for `lowest`, with two keys down. -/
theorem witness_KeyWaitStoresTheLowest :
    (under { Params.default with keyPick := .lowest }).params.keyPick = .lowest ∧
      ({ State.reset with key := (noKeys.set 2 true).set 9 true } : State).key[(9 : Fin 16).val] = true :=
  by decide
/-- The clause for `any`, with two keys down. -/
theorem witness_KeyWaitStoresAnyKeyDown :
    State.reset.params.keyPick = .any ∧
      ({ State.reset with key := (noKeys.set 2 true).set 9 true } : State).key[(9 : Fin 16).val] = true :=
  by decide
/-- A height of 0 anywhere, and the last byte of memory. -/
theorem witness_DrawXorsSprite :
    spriteFits (withI 0xFFFF) 0 ∧ spriteFits (withI 0xFFF) 1 ∧ spriteFits (withI 0xFF1) 15 :=
  by unfold spriteFits; decide
/-- The font's glyph 0 drawn twice on the blank display. -/
theorem witness_DrawTwiceRestores :
    spriteFits State.reset 5 ∧ (0 : RegIdx) ≠ 0xF ∧ (1 : RegIdx) ≠ 0xF ∧
      ∃ t u, exec (.drw 0 1 5) State.reset = .next t ∧ exec (.drw 0 1 5) t = .next u :=
  ⟨by unfold spriteFits; decide, by decide, by decide, _, _, rfl, rfl⟩
/-- The last clause: no cell under the sprite is set. -/
theorem witness_DrawTwiceOnClearCells :
    ∀ r c, drawsOn State.reset 0 1 5 r c = true → State.reset.disp.cell r c = false :=
  fun r c _ => by simp [State.reset, Display.blank, Display.cell]

end Sys2Proof.Tests
end

namespace Sys2Proof.Machine

/-! ### What a meaning can answer -/

/-- A meaning that checks for a fault before it acts answers the raised fault, under its condition, or
else the state it has computed (R261). -/
theorem raise_or_next {c : Prop} [Decidable c] {s u t : State} {k : Cause}
    (h : (if c then .next (s.raise k) else .next u : Result) = .next t) :
    (c ∧ t = s.raise k) ∨ (¬c ∧ t = u) := by
  by_cases hc : c
  · rw [if_pos hc] at h; cases h; exact .inl ⟨hc, rfl⟩
  · rw [if_neg hc] at h; cases h; exact .inr ⟨hc, rfl⟩

/-- Everything LD Vx, K can do (R213): it waits with no key down, or stores a key and advances. -/
theorem execLdVxK_cases {x : RegIdx} {s t : State} (h : execLdVxK x s = .next t) :
    (s.keysDown = [] ∧ t = s) ∨
    (∃ k ks, s.keysDown = k :: ks ∧ t = (s.setV x (BitVec.ofNat 8 (s.pickKey k ks).val)).next) := by
  unfold execLdVxK at h
  split at h
  next hk => cases h; exact .inl ⟨hk, rfl⟩
  next k ks hk => cases h; exact .inr ⟨k, ks, hk, rfl⟩

/-! ### The parameters (R8, R53) -/

@[simp] theorem State.finishFrame_params (s : State) : s.finishFrame.params = s.params := by
  simp [State.finishFrame]

/-- An instruction keeps the parameters: the fault it may raise keeps them, and so does every operation
its meaning is made of. -/
theorem exec_params {i : Instr} {s t : State} (h : exec i s = .next t) : t.params = s.params := by
  cases i with
  | call | ret | drw | skp | sknp | addIVx | ldBVx | ldMemVx | ldVxMem =>
    obtain ⟨-, rfl⟩ | ⟨-, rfl⟩ := raise_or_next h <;> simp
  | ldVxK x =>
    obtain ⟨-, rfl⟩ | ⟨k, ks, -, rfl⟩ := execLdVxK_cases h <;> simp
  | _ => cases h; simp

theorem execute_params {s t : State} (h : execute s = .next t) : t.params = s.params := by
  obtain ⟨-, hf⟩ | ⟨-, hx⟩ := execute_cases s
  · cases hf.symm.trans h; simp
  · exact exec_params (hx.symm.trans h)

theorem step_params {s t : State} (h : step s = .next t) : t.params = s.params := by
  obtain ⟨-, ⟨-, rfl⟩ | ⟨-, u, hu, rfl⟩⟩ := step_cases h
  · simp
  · calc u.finishFrame.params = u.params := u.finishFrame_params
      _ = s.poll.params := execute_params hu
      _ = s.params := s.poll_params

end Sys2Proof.Machine

namespace Sys2Proof.Claims

open Sys2Proof.Machine

/-- Settles O26: an instruction is built from operations that keep the parameters, and a frame from such
operations and one instruction. -/
theorem paramsNeverChange : Obligations.ParamsNeverChange :=
  ⟨fun _ _ _ => exec_params, fun _ _ => step_params⟩

end Sys2Proof.Claims

namespace Sys2Proof

/-! ### JP V0 needs `EXTRA_OPS` (R87) -/

theorem extraOps_of_decode_jpV0 {p : Params} {w : Word} {a : Addr12} (h : decode p w = .jpV0 a) :
    p.extraOps = true := by
  unfold decode decodeFamily0 decodeFamily8 decodeFamilyE decodeFamilyF at h
  repeat' split at h
  all_goals cases h
  assumption

end Sys2Proof

namespace Sys2Proof.Machine

open Sys2Proof.Claims

/-! ### What an instruction can do -/

/-- The conditional skips (R34, R180, R211, R212). -/
def skips (i : Instr) : Prop :=
  (∃ x kk, i = .seImm x kk ∨ i = .sneImm x kk) ∨ (∃ x y, i = .seReg x y ∨ i = .sneReg x y) ∨
    ∃ x, i = .skp x ∨ i = .sknp x

/-- The writers of `I` (R37). -/
def writesIndex (i : Instr) : Prop := (∃ a, i = .ldI a) ∨ (∃ x, i = .addIVx x) ∨ ∃ x, i = .ldFVx x

/-- The writers of memory (R46). -/
def writesMemory (i : Instr) : Prop := (∃ x, i = .ldBVx x) ∨ ∃ x, i = .ldMemVx x

/-- `Effect s i t`: from `s`, the instruction `i` may leave `t`. One constructor per composition of the
state's operations, with the instructions that use it. -/
inductive Effect (s : State) : Instr → State → Prop where
  | raise (i : Instr) (c : Cause) : Effect s i (s.raise c)
  | sys (a : Addr12) : Effect s (.sys a) s.next
  | skip (i : Instr) (hi : skips i) (c : Bool) : Effect s i (s.skipIf c)
  | jump (a : Addr12) : Effect s (.jp a) (s.jump (addr16 a))
  | jumpV0 (a : Addr12) : Effect s (.jpV0 a) (s.jump (addr16 a + byte16 (s.getV 0)))
  | call (a : Addr12) : Effect s (.call a) ((s.push s.pc).jump (addr16 a))
  | ret : Effect s .ret (s.pop.jump (s.pop.stackAt s.pop.sp + 2))
  | keyWait (x : RegIdx) : Effect s (.ldVxK x) s
  | setV (i : Instr) (x : RegIdx) (hx : writesReg i x) (b : Byte) : Effect s i (s.setV x b).next
  | setVFlag (i : Instr) (x : RegIdx) (hx : writesReg i x) (hf : writesReg i 0xF) (b : Byte) (f : Bool) :
      Effect s i ((s.setV x b).setFlag f).next
  | loadRegs (x : RegIdx) : Effect s (.ldVxMem x) (s.loadRegs x s.i.toNat).next
  | setI (i : Instr) (hi : writesIndex i) (a : Word) : Effect s i (s.setI a).next
  | setDT (x : RegIdx) (b : Byte) : Effect s (.ldDtVx x) (s.setDT b).next
  | setST (x : RegIdx) (b : Byte) : Effect s (.ldStVx x) (s.setST b).next
  | store (i : Instr) (hi : writesMemory i) (a : Nat) (bs : List Byte) : Effect s i (s.store a bs).next
  | clear : Effect s .cls s.clearDisplay.next
  | draw (x y : RegIdx) (n : Nibble) (d : Display) (f : Bool) :
      Effect s (.drw x y n) ((s.setDisplay d).setFlag f).next

/-- A meaning that checks for a fault before it acts has an effect when what it computes is one. -/
theorem Effect.of_check {c : Prop} [Decidable c] {i : Instr} {s t u : State} {k : Cause}
    (h : (if c then .next (s.raise k) else .next u : Result) = .next t) (hu : Effect s i u) :
    Effect s i t := by
  obtain ⟨-, rfl⟩ | ⟨-, rfl⟩ := raise_or_next h
  · exact .raise i k
  · exact hu

/-- Everything an instruction can do. -/
theorem exec_effect {i : Instr} {s t : State} (h : exec i s = .next t) : Effect s i t := by
  cases i with
  | sys a => cases h; exact .sys a
  | jp a => cases h; exact .jump a
  | jpV0 a => cases h; exact .jumpV0 a
  | call a => exact .of_check h (.call a)
  | ret => exact .of_check h .ret
  | seImm | sneImm | seReg | sneReg => cases h; exact .skip _ (by simp [skips]) _
  | skp | sknp => exact .of_check h (.skip _ (by simp [skips]) _)
  | ldImm | addImm | ldReg | orReg | andReg | xorReg | rnd | ldVxDt =>
    cases h; exact .setV _ _ (by simp [writesReg]) _
  | addReg | sub | subn | shr | shl =>
    cases h; exact .setVFlag _ _ (by simp [writesReg]) (by simp [writesReg]) _ _
  | ldVxK x =>
    obtain ⟨-, rfl⟩ | ⟨k, ks, -, rfl⟩ := execLdVxK_cases h
    · exact .keyWait x
    · exact .setV _ _ (by simp [writesReg]) _
  | ldVxMem x => exact .of_check h (.loadRegs x)
  | ldI | ldFVx => cases h; exact .setI _ (by simp [writesIndex]) _
  | addIVx => exact .of_check h (.setI _ (by simp [writesIndex]) _)
  | ldDtVx x => cases h; exact .setDT x _
  | ldStVx x => cases h; exact .setST x _
  | ldBVx | ldMemVx => exact .of_check h (.store _ (by simp [writesMemory]) _ _)
  | cls => cases h; exact .clear
  | drw x y n => exact .of_check h (.draw x y n _ _)
  | unrecognized => cases h; exact .raise _ _

/-- Everything Execute can do: the fault of a fetch out of range, or the effect of the decoded word. -/
theorem execute_effect {s t : State} (h : execute s = .next t) :
    (∃ c, t = s.raise c) ∨ (s.pc.toNat ≤ 0xFFE ∧ ∃ w, Effect s (decode s.params w) t) := by
  obtain ⟨-, hf⟩ | ⟨hpc, hx⟩ := execute_cases s
  · cases hf.symm.trans h; exact .inl ⟨_, rfl⟩
  · exact .inr ⟨hpc, _, exec_effect (hx.symm.trans h)⟩

/-- A property that the poll, every effect of an instruction and the end of a frame keep is kept by every
step (R270); a fetch out of range is covered by `Effect.raise`, which no instruction restricts. -/
theorem step_keeps {I : State → Prop} (hpoll : ∀ s : State, I s → I s.poll)
    (heffect : ∀ i (s t : State), Effect s i t → I s → I t)
    (hrun : ∀ s : State, I s → I s.endRun.endFrame) (hframe : ∀ s : State, I s → I s.finishFrame)
    {s t : State} (h : step s = .next t) (hs : I s) : I t := by
  obtain ⟨-, ⟨-, rfl⟩ | ⟨-, u, hu, rfl⟩⟩ := step_cases h
  · exact hrun _ (hpoll s hs)
  · obtain ⟨c, rfl⟩ | ⟨-, w, he⟩ := execute_effect hu
    · exact hframe _ (heffect .cls _ _ (.raise .cls c) (hpoll s hs))
    · exact hframe _ (heffect _ _ _ he (hpoll s hs))

/-! ### The canonical form of memory (R46) -/

theorem Effect.mem_wf {i : Instr} {s t : State} (he : Effect s i t) (hm : s.mem.wf) : t.mem.wf := by
  cases he with
  | store i hi a bs => exact Memory.wf_writeBytes hm a bs
  | _ => exact hm

theorem State.poll_mem_wf {s : State} (hm : s.mem.wf) : s.poll.mem.wf := by rwa [State.poll_mem]

/-! ### `Cause` and `Halted` (R45, R261) -/

theorem State.raise_causeAgrees (s : State) (c : Cause) : (s.raise c).causeAgrees := by
  simp [State.causeAgrees]

theorem State.poll_causeAgrees {s : State} (hs : s.causeAgrees) : s.poll.causeAgrees := by
  cases hq : s.input.quit with
  | true => rw [State.poll_of_quit hq]; exact s.takeKeys.raise_causeAgrees .quit
  | false => rw [State.poll_of_no_quit hq]; exact hs

theorem Effect.causeAgrees {i : Instr} {s t : State} (he : Effect s i t) (hs : s.causeAgrees) :
    t.causeAgrees := by
  cases he with
  | raise i c => exact s.raise_causeAgrees c
  | _ => exact hs

/-! ### `PC` and the stack (R34, R36, R39) -/

/-- A stack entry stands, or a CALL stored `PC` in it (R39, R112). -/
theorem Effect.stackAt_cases {i : Instr} {s t : State} (he : Effect s i t) (j : BitVec 4) :
    t.stackAt j = s.stackAt j ∨ t.stackAt j = s.pc := by
  cases he with
  | call a => simp only [State.jump_stackAt, State.stackAt_push]; split <;> simp
  | _ => exact .inl rfl

/-- Where `PC` goes from an address that can be fetched (R36): two or four bytes on, to a 12-bit target, past
the address on the stack, or under `EXTRA_OPS` to a 12-bit target plus a byte (R114). -/
theorem Effect.pc_le {i : Instr} {s t : State} (he : Effect s i t) (ht : t.running) (hpc : s.pc.toNat ≤ 0xFFE)
    (hstack : ∀ j : BitVec 4, (s.stackAt j).toNat ≤ 0xFFE)
    (hjp : ∀ a, i = .jpV0 a → s.params.extraOps = true) : t.pc.toNat ≤ pcLimit s.params := by
  have hlimit : 0x1002 ≤ pcLimit s.params := by unfold pcLimit; split <;> omega
  cases he with
  | raise => cases ht
  | skip i hi c =>
    have h2 : (s.pc + 2).toNat ≤ 0x1002 := by bv_omega
    have h4 : (s.pc + 4).toNat ≤ 0x1002 := by bv_omega
    rw [State.skipIf_pc]
    split <;> omega
  | jump a | call a =>
    have ha : (addr16 a).toNat ≤ 0xFFF := by unfold addr16; bv_omega
    simp only [State.jump_pc]; omega
  | jumpV0 a =>
    have ha : (addr16 a + byte16 (s.getV 0)).toNat ≤ 0x10FE := by unfold addr16 byte16; bv_omega
    rw [pcLimit, if_pos (hjp a rfl)]
    exact ha
  | ret =>
    have hj := hstack (s.sp - 1)
    have ha : (s.stackAt (s.sp - 1) + 2).toNat ≤ 0x1000 := by bv_omega
    simp only [State.jump_pc, State.pop_stackAt, State.pop_sp]; omega
  | keyWait x => omega
  | _ =>
    have h2 : (s.pc + 2).toNat ≤ 0x1002 := by bv_omega
    exact h2.trans hlimit

theorem execute_pcBounded {s t : State} (h : execute s = .next t) (ht : t.running) (hs : s.pcBounded) :
    t.pcBounded := by
  obtain ⟨c, rfl⟩ | ⟨hpc, w, he⟩ := execute_effect h
  · cases ht
  · refine ⟨?_, fun j => ?_⟩
    · rw [execute_params h]
      exact he.pc_le ht hpc hs.2 fun a => extraOps_of_decode_jpV0
    · obtain hj | hj := he.stackAt_cases j
      · rw [hj]; exact hs.2 j
      · rw [hj]; exact hpc

theorem State.poll_pcBounded {s : State} (hs : s.pcBounded) : s.poll.pcBounded := by
  simpa only [State.pcBounded, State.poll_pc, State.poll_params, State.poll_stackAt] using hs

/-- The bound is kept by a step that ends Running, which is one that has executed an instruction (R270). -/
theorem step_pcBounded {s t : State} (h : step s = .next t) (ht : t.running) (hs : s.pcBounded) :
    t.pcBounded := by
  obtain ⟨-, ⟨hh, rfl⟩ | ⟨-, u, hu, rfl⟩⟩ := step_cases h
  · exact absurd (hh.symm.trans ht) (by decide)
  · exact (execute_pcBounded hu ht (State.poll_pcBounded hs) : u.pcBounded)

/-- What becomes of `PC` under an instruction that does not fault (R34). -/
theorem Effect.pc_cases {i : Instr} {s t : State} (he : Effect s i t) (ht : t.running) :
    t.pc = s.pc + 2 ∨ (t.pc = s.pc + 4 ∧ skips i) ∨ (∃ a, i = .jp a ∨ i = .call a ∨ i = .jpV0 a) ∨
      i = .ret ∨ ((∃ x, i = .ldVxK x) ∧ t.pc = s.pc) := by
  cases he with
  | raise => cases ht
  | skip i hi c => cases c with
    | true => exact .inr (.inl ⟨rfl, hi⟩)
    | false => exact .inl rfl
  | jump a | call a | jumpV0 a => exact .inr (.inr (.inl ⟨a, by simp⟩))
  | ret => exact .inr (.inr (.inr (.inl rfl)))
  | keyWait x => exact .inr (.inr (.inr (.inr ⟨⟨x, rfl⟩, rfl⟩)))
  | _ => exact .inl rfl

/-! ### Who writes what (R32, R37 to R46) -/

/-- A register that a write to `x` changes is `x`. -/
theorem State.getV_setV_changed {s : State} {x r : RegIdx} {b : Byte}
    (h : (s.setV x b).getV r ≠ s.getV r) : r = x := by
  by_contra hr
  exact h (s.getV_setV_other b (Ne.symm hr))

/-- The registers an instruction changes are among those of its row of R32. -/
theorem Effect.getV_changed {i : Instr} {s t : State} (he : Effect s i t) {r : RegIdx}
    (hr : t.getV r ≠ s.getV r) : writesReg i r := by
  cases he with
  | setV i x hx b => rwa [State.getV_setV_changed hr]
  | setVFlag i x hx hf b f =>
    by_cases h : r = 0xF
    · rwa [h]
    · rw [State.next_getV, State.getV_setFlag_other _ _ h] at hr
      rwa [State.getV_setV_changed hr]
  | loadRegs x =>
    have hrx : r ≤ x := by
      by_contra h
      exact hr (by rw [State.next_getV, State.getV_loadRegs, if_neg h])
    simp [writesReg, hrx]
  | draw x y n d f =>
    obtain rfl : r = 0xF := State.getV_setV_changed hr
    simp [writesReg]
  | _ => exact absurd rfl hr

/-! ### The inputs (R44, R278) -/

/-- `s` with another key snapshot and other inputs. -/
def State.withInputs (s : State) (keys : Vector Bool 16) (ins : List FrameInput) : State :=
  { s with key := keys, inputs := ins }

theorem State.coordState_withInputs (s : State) (keys : Vector Bool 16) (ins : List FrameInput) :
    (s.withInputs keys ins).coordState = s.coordState.withInputs keys ins := by
  unfold State.coordState State.withInputs
  cases s.params.drwCoordLatch <;> rfl

/-- The keys and the inputs pass through an instruction that does not read them: it answers the same state
with the same change in it, whether it faults or not. -/
theorem exec_withInputs {i : Instr} {s t : State} (h : exec i s = .next t)
    (hrnd : ∀ x kk, i ≠ .rnd x kk) (hkey : ∀ x, i ≠ .skp x ∧ i ≠ .sknp x ∧ i ≠ .ldVxK x)
    (keys : Vector Bool 16) (ins : List FrameInput) :
    exec i (s.withInputs keys ins) = .next (t.withInputs keys ins) := by
  cases i with
  | rnd x kk => exact absurd rfl (hrnd x kk)
  | skp x => exact absurd rfl (hkey x).1
  | sknp x => exact absurd rfl (hkey x).2.1
  | ldVxK x => exact absurd rfl (hkey x).2.2
  | drw x y n =>
    obtain ⟨hc, rfl⟩ | ⟨hc, rfl⟩ := raise_or_next h
    · exact if_pos hc
    · exact (if_neg hc).trans (by rw [State.coordState_withInputs]; rfl)
  | call | ret | addIVx | ldBVx | ldMemVx | ldVxMem =>
    obtain ⟨hc, rfl⟩ | ⟨hc, rfl⟩ := raise_or_next h
    · exact if_pos hc
    · exact if_neg hc
  | _ => cases h; rfl

/-! ### Reset -/

theorem reset_valued : resetValued State.reset := by
  refine ⟨fun x => ?_, rfl, rfl, rfl, fun j => ?_, rfl, rfl, Display.cell_blank, rfl, fun k => ?_, rfl, rfl⟩
  · simp [State.reset, State.getV]
  · simp [State.reset, State.stackAt]
  · simp [State.reset]

theorem Memory.unlisted_of_font_end_le {a : Nat} (h : 0x50 ≤ a) : Memory.unlisted a = 0 :=
  List.getD_eq_default _ _ h

theorem reset_mem_wf : State.reset.mem.wf := Memory.wf_empty

theorem reset_read (a : Nat) : State.reset.mem.read a = Memory.unlisted a := rfl

/-- Memory at launch (R300): the font at 0x000 and the image at 0x200, over memory at reset. -/
def bootMemory (font : Vector Byte 80) (image : List Byte) : Memory :=
  (State.reset.mem.writeBytes 0 font.toList).writeBytes Config.progBase image

theorem boot_of_le {image : List Byte} (h : image.length ≤ 0xE00) (p : Params) (font : Vector Byte 80) :
    State.boot p font image = some { State.reset with mem := bootMemory font image, params := p } :=
  if_pos h

theorem boot_of_gt {image : List Byte} (h : image.length > 0xE00) (p : Params) (font : Vector Byte 80) :
    State.boot p font image = none :=
  if_neg (Nat.not_le.2 h)

theorem bootMemory_wf (font : Vector Byte 80) (image : List Byte) : (bootMemory font image).wf :=
  Memory.wf_writeBytes (Memory.wf_writeBytes reset_mem_wf _ _) _ _

/-- Every byte of memory at launch: the image, the font below it, and otherwise the reset contents. -/
theorem bootMemory_read (font : Vector Byte 80) {image : List Byte} (h : image.length ≤ 0xE00) (a : Nat) :
    (bootMemory font image).read a =
      if 0x200 ≤ a ∧ a < 0x200 + image.length then image.getD (a - 0x200) 0
      else if a < 0x50 then font.toList.getD a 0 else Memory.unlisted a := by
  have hfont : Memory.wf (State.reset.mem.writeBytes 0 font.toList) :=
    Memory.wf_writeBytes reset_mem_wf _ _
  rw [bootMemory, Memory.read_writeBytes hfont _ _ (by simp only [Config.progBase, Config.memSize]; omega),
    Memory.read_writeBytes reset_mem_wf _ _ (by simp [Config.memSize]), reset_read]
  simp [Config.progBase]

end Sys2Proof.Machine

namespace Sys2Proof.Claims

open Sys2Proof.Machine

/-- Settles O18: `store` is the one effect on memory, and writing bytes keeps the canonical form. -/
theorem memoryStaysCanonical : Obligations.MemoryStaysCanonical := fun _ _ hm h =>
  step_keeps (I := fun s => s.mem.wf) (fun _ => State.poll_mem_wf) (fun _ _ _ he => he.mem_wf) (fun _ => id)
    (fun _ => id) h hm

/-- Settles O20: only `raise` writes `Halted` or the cause, and it writes both. -/
theorem causeAgreesWithHalted : Obligations.CauseAgreesWithHalted := fun _ _ hs h =>
  step_keeps (I := State.causeAgrees) (fun _ => State.poll_causeAgrees) (fun _ _ _ he => he.causeAgrees)
    (fun _ => id) (fun _ => id) h hs

/-- Settles O19: the instruction is fetched at 0xFFE or below, which bounds every advance of `PC` and the
address that a CALL pushes. -/
theorem pcStaysBounded : Obligations.PcStaysBounded := fun _ _ hs h ht => step_pcBounded h ht hs

/-- Settles O28: the cases of `PC` over the effects of an instruction. -/
theorem pcAdvancesByTwo : Obligations.PcAdvancesByTwo := fun _ _ _ h _ ht => (exec_effect h).pc_cases ht

/-- Settles O27: each effect of an instruction names its instructions and keeps every other field. -/
theorem onlyNamedWritersWrite : Obligations.OnlyNamedWritersWrite := by
  intro i s t h _ ht
  have he := exec_effect h
  refine ⟨fun r => he.getV_changed, ?_⟩
  cases he with
  | raise => cases ht
  | setI i hi a => exact ⟨fun _ => hi, by simp⟩
  | store i hi a bs => simpa [writesMemory] using fun _ => hi
  | _ => simp

/-- Settles O31: the changed keys and inputs pass through the instruction. -/
theorem inputsReachOnlyTheirReaders : Obligations.InputsReachOnlyTheirReaders :=
  fun _ _ t keys ins h hrnd hkey =>
    ⟨t.withInputs keys ins, exec_withInputs h hrnd hkey keys ins, rfl, rfl, fun _ => rfl⟩

/-- Settles O23: the reset values meet each invariant. -/
theorem resetMeetsInvariants : Obligations.ResetMeetsInvariants := by
  refine ⟨reset_mem_wf, ⟨by decide, fun j => ?_⟩, rfl, rfl⟩
  obtain ⟨-, -, -, -, hstack, -⟩ := reset_valued
  rw [hstack]; decide

/-- Settles O24: memory at reset lists no byte, so every byte reads as its reset contents. -/
theorem resetValues : Obligations.ResetValues := by
  refine ⟨reset_valued, fun a => ?_⟩
  rw [reset_read]
  split
  · rfl
  · exact Memory.unlisted_of_font_end_le (by omega)

/-- Settles O25: what each byte of memory at launch reads as, range by range. -/
theorem bootLoadsImage : Obligations.BootLoadsImage := by
  intro p font image
  refine ⟨fun h => boot_of_gt h p font, fun h => ⟨_, boot_of_le h p font, rfl, reset_valued,
    bootMemory_wf font image, fun a => ?_, fun a hlo hhi => ?_, fun j hj => ?_, fun a hlo _ => ?_⟩⟩
  · have ha := a.isLt
    rw [bootMemory_read font h, if_neg (by omega), if_pos ha]
    simp
  · rw [bootMemory_read font h, if_neg (by omega), if_neg (by omega),
      Memory.unlisted_of_font_end_le hlo]
  · rw [bootMemory_read font h, if_pos (by omega), Nat.add_sub_cancel_left]
  · rw [bootMemory_read font h, if_neg (by omega), if_neg (by omega),
      Memory.unlisted_of_font_end_le (by omega)]

end Sys2Proof.Claims

namespace Sys2Proof.Machine

open Sys2Proof.Claims

/-! ### Fetch (R60, R61, R62) -/

theorem State.fetch_of_le {s : State} (h : s.pc.toNat ≤ 0xFFE) :
    s.fetch = .ok (wordOfBytes (s.mem.read s.pc.toNat) (s.mem.read (s.pc.toNat + 1))) := by
  obtain ⟨-, hf⟩ | ⟨hgt, -⟩ := s.fetch_spec
  · exact hf
  · exact absurd hgt (by omega)

theorem State.fetch_ne_ok_of_gt {s : State} (h : 0xFFE < s.pc.toNat) (w : Word) : s.fetch ≠ .ok w := by
  obtain ⟨hle, -⟩ | ⟨-, hf⟩ := s.fetch_spec
  · exact absurd hle (by omega)
  · rw [hf]; nofun

theorem execute_of_gt {s : State} (h : 0xFFE < s.pc.toNat) :
    execute s = .next (s.raise (.bounds (max s.pc.toNat 0x1000) (max s.pc.toNat 0x1000))) := by
  obtain ⟨-, he⟩ | ⟨hle, -⟩ := execute_cases s
  · exact he
  · exact absurd hle (by omega)

/-- A frame that reaches its instruction does what Execute does after the poll, and finishes (R270). -/
theorem step_of_execute {s u : State} (h : reachesExecute s) (hu : execute s.takeKeys = .next u) :
    step s = .next u.finishFrame := by
  obtain ⟨hstop, hrun, hquit⟩ := h
  exact step_of_running hstop (by simp [hrun, hquit]) (by rwa [State.poll_of_no_quit hquit])

/-- A fault raised in Execute stands when the frame has ended (R261, R266). -/
theorem faultsWith_frame (s : State) (c : Cause) : faultsWith s (s.takeKeys.raise c).finishFrame c :=
  s.takeKeys.raise_spec c

/-! ### The registers that Fx55 stores (R190) -/

@[simp] theorem State.regsUpTo_length (s : State) (x : RegIdx) : (s.regsUpTo x).length = x.val + 1 := by
  have := x.isLt
  simp only [State.regsUpTo, List.length_take, Vector.length_toList]
  omega

theorem State.regsUpTo_getD (s : State) {x r : RegIdx} (h : r ≤ x) :
    (s.regsUpTo x).getD r.val 0 = s.getV r := by
  have hlt : r.val < x.val + 1 := Nat.lt_succ_of_le h
  simp [State.regsUpTo, State.getV, List.getD_eq_getElem?_getD, hlt]

theorem State.read_store_regsUpTo {s : State} {x r : RegIdx} (hm : s.mem.wf)
    (hx : s.i.toNat + x.val ≤ 0xFFF) (hr : r ≤ x) :
    (s.store s.i.toNat (s.regsUpTo x)).mem.read (s.i.toNat + r.val) = s.getV r := by
  have hrx : r.val ≤ x.val := hr
  have hfit : s.i.toNat + (s.regsUpTo x).length ≤ Config.memSize := by
    simp only [State.regsUpTo_length, Config.memSize]; omega
  rw [State.store, Memory.read_writeBytes hm _ _ hfit, State.regsUpTo_length, if_pos (by omega),
    Nat.add_sub_cancel_left, s.regsUpTo_getD hr]

theorem execLdMemVx_of_le {s : State} {x : RegIdx} (h : s.i.toNat + x.val ≤ 0xFFF) :
    execLdMemVx x s = .next (s.store s.i.toNat (s.regsUpTo x)).next :=
  if_neg (Nat.not_lt.2 h)

end Sys2Proof.Machine

namespace Sys2Proof.Claims

open Sys2Proof.Machine

/-- Settles O50: the fetch reads each of the two bytes as the register that Fx55 stored there. -/
theorem storedBytesAreFetched : Obligations.StoredBytesAreFetched := by
  intro s x t hm hx h r q hq hqx hpc
  cases (execLdMemVx_of_le hx).symm.trans h
  have hqx' : q.val ≤ x.val := hqx
  have hrx : r ≤ x := by rw [Fin.le_def]; omega
  have hnext : s.i.toNat + r.val + 1 = s.i.toNat + q.val := by omega
  rw [State.fetch_of_le (by omega), hpc, hnext, State.next_mem, State.read_store_regsUpTo hm hx hrx,
    State.read_store_regsUpTo hm hx hqx]

/-- Settles O8: the cases of a fetch, and the number of a word made of two bytes. -/
theorem fetchIsBigEndian : Obligations.FetchIsBigEndian := fun _ =>
  ⟨fun h => ⟨_, State.fetch_of_le h, wordOfBytes_toNat _ _⟩, State.fetch_ne_ok_of_gt⟩

/-- Settles O11: Execute raises the fetch's cause, whose address is `PC` or, below 0x1000, 0x1000. -/
theorem fetchOutOfRangeFaults : Obligations.FetchOutOfRangeFaults := by
  intro s hreach hpc
  have haddr : max s.pc.toNat 0x1000 = if s.pc.toNat = 0xFFF then 0x1000 else s.pc.toNat := by
    split <;> omega
  exact ⟨_, step_of_execute hreach (execute_of_gt hpc), _, haddr, faultsWith_frame s _⟩

end Sys2Proof.Claims

namespace Sys2Proof

section
variable {p : Params} {w : Word}

/-! ### A word is made of its fields (R81) -/

theorem wordN_of_fields {op : BitVec 4} (ho : (opField w).toNat = op.toNat) : wordN op (nnnField w) = w := by
  apply BitVec.eq_of_toNat_eq
  rw [opField_toNat] at ho
  rw [wordN_toNat, nnnField_toNat]; omega

theorem wordXK_of_fields {op : BitVec 4} {kk : Byte} (ho : (opField w).toNat = op.toNat)
    (hk : (kkField w).toNat = kk.toNat) : wordXK op (xField w) kk = w := by
  apply BitVec.eq_of_toNat_eq
  rw [opField_toNat] at ho
  rw [kkField_toNat] at hk
  rw [wordXK_toNat, xField_val]; omega

theorem wordXYN_of_fields {op : BitVec 4} {n : Nibble} (ho : (opField w).toNat = op.toNat)
    (hn : (nField w).val = n.val) : wordXYN op (xField w) (yField w) n = w := by
  apply BitVec.eq_of_toNat_eq
  rw [opField_toNat] at ho
  rw [nField_val] at hn
  rw [wordXYN_toNat, xField_val, yField_val]; omega

/-! ### The decoder by top nibble (R84) -/

theorem decode_of_op0 (h : (opField w).toNat = 0x0) : decode p w = decodeFamily0 p w := by
  simp only [decode, h]

theorem decode_of_op5 (h : (opField w).toNat = 0x5) :
    decode p w =
      if p.decodeStrict ∧ nField w ≠ 0 then .unrecognized w else .seReg (xField w) (yField w) := by
  simp only [decode, h]

theorem decode_of_op8 (h : (opField w).toNat = 0x8) : decode p w = decodeFamily8 p w := by
  simp only [decode, h]

theorem decode_of_op9 (h : (opField w).toNat = 0x9) :
    decode p w =
      if p.decodeStrict ∧ nField w ≠ 0 then .unrecognized w else .sneReg (xField w) (yField w) := by
  simp only [decode, h]

theorem decode_of_opB (h : (opField w).toNat = 0xB) :
    decode p w = if p.extraOps then .jpV0 (nnnField w) else .unrecognized w := by
  simp only [decode, h]

/-! ### Family 0x0 (R85, R86) -/

theorem kkField_eq_iff (kk : Byte) : kkField w = kk ↔ w.toNat % 256 = kk.toNat := by
  rw [← BitVec.toNat_inj, kkField_toNat]

theorem xField_eq_zero_iff : xField w = 0 ↔ w.toNat / 256 % 16 = 0 := by
  rw [Fin.ext_iff, xField_val]; rfl

theorem nField_eq_zero_iff : nField w = 0 ↔ w.toNat % 16 = 0 := by
  rw [Fin.ext_iff, nField_val]; rfl

/-- The words that SYS does not cover, by the fields that the decoder examines. -/
theorem clsOrRetWord_nnnField :
    clsOrRetWord p (nnnField w) = true ↔
      (kkField w = 0xE0 ∨ kkField w = 0xEE) ∧ (p.decodeStrict = false ∨ xField w = 0) := by
  simp only [kkField_eq_iff, xField_eq_zero_iff]
  cases hs : p.decodeStrict with
  | false => simp [clsOrRetWord, hs, nnnField_toNat]
  | true => simp [clsOrRetWord, hs, ← BitVec.toNat_inj, nnnField_toNat]; omega

theorem decodeFamily0_of_sys (h : clsOrRetWord p (nnnField w) = false) :
    decodeFamily0 p w = .sys (nnnField w) := by
  have hn := mt (clsOrRetWord_nnnField (p := p) (w := w)).2 (by simp [h])
  rw [decodeFamily0, if_neg fun hc => hn ⟨.inl hc.1, hc.2⟩, if_neg fun hc => hn ⟨.inr hc.1, hc.2⟩]

/-- In family 0x0 the low byte and bits 11:8 make up the whole word. -/
theorem eq_word_iff_of_op0 (ho : (opField w).toNat = 0x0) (kk : Byte) :
    w = wordXK 0x0 0 kk ↔ kkField w = kk ∧ xField w = 0 := by
  constructor
  · rintro rfl; simp
  · rintro ⟨rfl, hx⟩; rw [← hx, wordXK_of_fields ho rfl]

/-! ### The unrecognized space by top nibble (R89) -/

theorem unrecognizedWord_of_op {k : Nat} (h : (opField w).toNat = k)
    (hk : k ∉ [0x5, 0x8, 0x9, 0xB, 0xE, 0xF]) : unrecognizedWord p w = false := by
  rw [opField_toNat] at h
  simp_all [unrecognizedWord]

theorem unrecognizedWord_of_op5_or_9 (h : (opField w).toNat = 0x5 ∨ (opField w).toNat = 0x9) :
    unrecognizedWord p w = true ↔ p.decodeStrict = true ∧ nField w ≠ 0 := by
  rw [opField_toNat] at h
  rw [Ne, nField_eq_zero_iff]
  obtain h | h := h <;> simp [unrecognizedWord, h]

theorem unrecognizedWord_of_op8 (h : (opField w).toNat = 0x8) :
    unrecognizedWord p w = true ↔
      ((nField w).val = 7 ∧ p.extraOps = false) ∨ (8 ≤ (nField w).val ∧ (nField w).val ≠ 0xE) := by
  rw [opField_toNat] at h
  simp [unrecognizedWord, h, nField_val]

theorem unrecognizedWord_of_opB (h : (opField w).toNat = 0xB) :
    unrecognizedWord p w = !p.extraOps := by
  rw [opField_toNat] at h
  simp [unrecognizedWord, h]

theorem unrecognizedWord_of_opE (h : (opField w).toNat = 0xE) :
    unrecognizedWord p w = true ↔ (kkField w).toNat ≠ 0x9E ∧ (kkField w).toNat ≠ 0xA1 := by
  rw [opField_toNat] at h
  simp [unrecognizedWord, h, kkField_toNat, ← BitVec.toNat_inj]

theorem unrecognizedWord_of_opF (h : (opField w).toNat = 0xF) :
    unrecognizedWord p w = true ↔ (kkField w).toNat ∉ fxBytes.map BitVec.toNat := by
  rw [opField_toNat] at h
  simp [unrecognizedWord, h, kkField_toNat, fxBytes, ← BitVec.toNat_inj]

/-! ### What the decoder's answer owes to the word -/

variable (p w) in
/-- `i` is a proper reading of the word `w`: it exists under the configuration, it is UNRECOGNIZED exactly
in the unrecognized space, and under `DECODE_STRICT` no bit of the word is lost in it. -/
structure Reads (i : Instr) : Prop where
  wellFormed : WellFormed p i = true
  unrecognized_iff : ∀ u, i = .unrecognized u ↔ u = w ∧ unrecognizedWord p w = true
  encode_eq : p.decodeStrict = true → encode i = w

theorem Reads.unrecognized (h : unrecognizedWord p w = true) : Reads p w (.unrecognized w) :=
  ⟨h, fun u => by simp [h, eq_comm], fun _ => rfl⟩

theorem Reads.recognized {i : Instr} (hi : ∀ u, i ≠ .unrecognized u) (hw : WellFormed p i = true)
    (hu : unrecognizedWord p w = false) (he : p.decodeStrict = true → encode i = w) : Reads p w i :=
  ⟨hw, fun u => by simp [hi, hu], he⟩

theorem decodeFamily0_reads (ho : (opField w).toNat = 0x0) : Reads p w (decodeFamily0 p w) := by
  have hu : unrecognizedWord p w = false := unrecognizedWord_of_op ho (by decide)
  have hword (kk : Byte) (hc : kkField w = kk ∧ (p.decodeStrict = false ∨ xField w = 0))
      (hs : p.decodeStrict = true) : wordXK 0x0 0 kk = w :=
    ((eq_word_iff_of_op0 ho kk).2 ⟨hc.1, hc.2.resolve_left (by simp [hs])⟩).symm
  by_cases hsys : clsOrRetWord p (nnnField w) = true
  · unfold decodeFamily0
    split
    next hc => exact .recognized nofun rfl hu (hword _ hc)
    split
    next hc => exact .recognized nofun rfl hu (hword _ hc)
    next hE0 hEE =>
      obtain ⟨hk | hk, hx⟩ := clsOrRetWord_nnnField.1 hsys
      · exact absurd ⟨hk, hx⟩ hE0
      · exact absurd ⟨hk, hx⟩ hEE
  · rw [decodeFamily0_of_sys (by simpa using hsys)]
    exact .recognized nofun (by simpa [WellFormed] using hsys) hu fun _ => wordN_of_fields ho

theorem decodeFamily8_reads (ho : (opField w).toNat = 0x8) : Reads p w (decodeFamily8 p w) := by
  have hlisted {i : Instr} {n : Nibble} (hn : (nField w).val = n.val) (h7 : n.val < 7 ∨ n.val = 0xE)
      (hi : ∀ u, i ≠ .unrecognized u) (hw : WellFormed p i = true)
      (he : encode i = wordXYN 0x8 (xField w) (yField w) n) : Reads p w i := by
    refine .recognized hi hw ?_ fun _ => he.trans (wordXYN_of_fields ho hn)
    rw [Bool.eq_false_iff, Ne, unrecognizedWord_of_op8 ho]; omega
  unfold decodeFamily8
  split
  next hn => exact hlisted (n := 0x0) hn (by decide) nofun rfl rfl
  next hn => exact hlisted (n := 0x1) hn (by decide) nofun rfl rfl
  next hn => exact hlisted (n := 0x2) hn (by decide) nofun rfl rfl
  next hn => exact hlisted (n := 0x3) hn (by decide) nofun rfl rfl
  next hn => exact hlisted (n := 0x4) hn (by decide) nofun rfl rfl
  next hn => exact hlisted (n := 0x5) hn (by decide) nofun rfl rfl
  next hn => exact hlisted (n := 0x6) hn (by decide) nofun rfl rfl
  next hn =>
    have hu := unrecognizedWord_of_op8 (p := p) ho
    split
    next he =>
      exact .recognized nofun he (by simpa [hn, he] using hu) fun _ => wordXYN_of_fields (n := 0x7) ho hn
    next he => exact .unrecognized (by simpa [hn, he] using hu)
  next hn => exact hlisted (n := 0xE) hn (by decide) nofun rfl rfl
  next =>
    have hn : 8 ≤ (nField w).val ∧ (nField w).val ≠ 0xE := by simp only [imp_false] at *; omega
    exact .unrecognized ((unrecognizedWord_of_op8 ho).2 (.inr hn))

theorem decodeFamilyE_reads (ho : (opField w).toNat = 0xE) : Reads p w (decodeFamilyE w) := by
  have hu := unrecognizedWord_of_opE (p := p) ho
  unfold decodeFamilyE
  split
  next hk => exact .recognized nofun rfl (by simpa [hk] using hu) fun _ => wordXK_of_fields ho hk
  next hk => exact .recognized nofun rfl (by simpa [hk] using hu) fun _ => wordXK_of_fields ho hk
  next h9E hA1 => exact .unrecognized (hu.2 ⟨h9E, hA1⟩)

theorem decodeFamilyF_reads (ho : (opField w).toNat = 0xF) : Reads p w (decodeFamilyF w) := by
  have hu := unrecognizedWord_of_opF (p := p) ho
  have hlisted {i : Instr} {kk : Byte} (hk : (kkField w).toNat = kk.toNat)
      (hmem : kk.toNat ∈ fxBytes.map BitVec.toNat) (hi : ∀ u, i ≠ .unrecognized u)
      (hw : WellFormed p i = true) (he : encode i = wordXK 0xF (xField w) kk) : Reads p w i :=
    .recognized hi hw (by simpa [hk, hmem] using hu) fun _ => he.trans (wordXK_of_fields ho hk)
  unfold decodeFamilyF
  split
  next hk => exact hlisted (kk := 0x07) hk (by decide) nofun rfl rfl
  next hk => exact hlisted (kk := 0x0A) hk (by decide) nofun rfl rfl
  next hk => exact hlisted (kk := 0x15) hk (by decide) nofun rfl rfl
  next hk => exact hlisted (kk := 0x18) hk (by decide) nofun rfl rfl
  next hk => exact hlisted (kk := 0x1E) hk (by decide) nofun rfl rfl
  next hk => exact hlisted (kk := 0x29) hk (by decide) nofun rfl rfl
  next hk => exact hlisted (kk := 0x33) hk (by decide) nofun rfl rfl
  next hk => exact hlisted (kk := 0x55) hk (by decide) nofun rfl rfl
  next hk => exact hlisted (kk := 0x65) hk (by decide) nofun rfl rfl
  next => exact .unrecognized (hu.2 (by simp_all [fxBytes]))

/-- Families 0x5 and 0x9: the low nibble must be 0 under `DECODE_STRICT` (R86). -/
theorem reads_of_low_nibble {i : Instr} {op : BitVec 4} (hop : op = 0x5 ∨ op = 0x9)
    (ho : (opField w).toNat = op.toNat) (hi : ∀ u, i ≠ .unrecognized u) (hw : WellFormed p i = true)
    (he : encode i = wordXYN op (xField w) (yField w) 0) :
    Reads p w (if p.decodeStrict ∧ nField w ≠ 0 then .unrecognized w else i) := by
  have hu : unrecognizedWord p w = true ↔ p.decodeStrict = true ∧ nField w ≠ 0 :=
    unrecognizedWord_of_op5_or_9 (by obtain rfl | rfl := hop; exacts [.inl ho, .inr ho])
  split
  next hc => exact .unrecognized (hu.2 hc)
  next hc =>
    refine .recognized hi hw (by simpa [hc] using hu) fun hs => he.trans (wordXYN_of_fields ho ?_)
    have hn : nField w = 0 := by simpa [hs] using hc
    rw [hn]

/-- Every word is read properly: the families that leave no word out, and the seven others by their own
field (R84). -/
theorem decode_reads (p : Params) (w : Word) : Reads p w (decode p w) := by
  have hall {i : Instr} {op : BitVec 4} (ho : (opField w).toNat = op.toNat)
      (hop : op.toNat ∉ [0x5, 0x8, 0x9, 0xB, 0xE, 0xF]) (hi : ∀ u, i ≠ .unrecognized u)
      (hw : WellFormed p i = true) (he : encode i = w) : Reads p w i :=
    .recognized hi hw (unrecognizedWord_of_op ho hop) fun _ => he
  unfold decode
  split
  next ho => exact decodeFamily0_reads ho
  next ho => exact hall (op := 0x1) ho (by decide) nofun rfl (wordN_of_fields ho)
  next ho => exact hall (op := 0x2) ho (by decide) nofun rfl (wordN_of_fields ho)
  next ho => exact hall (op := 0x3) ho (by decide) nofun rfl (wordXK_of_fields ho rfl)
  next ho => exact hall (op := 0x4) ho (by decide) nofun rfl (wordXK_of_fields ho rfl)
  next ho => exact reads_of_low_nibble (.inl rfl) ho nofun rfl rfl
  next ho => exact hall (op := 0x6) ho (by decide) nofun rfl (wordXK_of_fields ho rfl)
  next ho => exact hall (op := 0x7) ho (by decide) nofun rfl (wordXK_of_fields ho rfl)
  next ho => exact decodeFamily8_reads ho
  next ho => exact reads_of_low_nibble (.inr rfl) ho nofun rfl rfl
  next ho => exact hall (op := 0xA) ho (by decide) nofun rfl (wordN_of_fields ho)
  next ho =>
    have hu := unrecognizedWord_of_opB (p := p) ho
    split
    next he => exact .recognized nofun he (by simp [hu, he]) fun _ => wordN_of_fields ho
    next he => exact .unrecognized (by simp [hu, he])
  next ho => exact hall (op := 0xC) ho (by decide) nofun rfl (wordXK_of_fields ho rfl)
  next ho => exact hall (op := 0xD) ho (by decide) nofun rfl (wordXYN_of_fields ho rfl)
  next ho => exact decodeFamilyE_reads ho
  next =>
    have hlt := (opField w).isLt
    have ho : (opField w).toNat = 0xF := by simp only [imp_false] at *; omega
    exact decodeFamilyF_reads ho

end

/-! ### Decoding the word of an instruction (R88) -/

/-- Each instruction's word has its own row's family and selector, so that the decoder gives it back. -/
theorem decode_encode {p : Params} {i : Instr} (h : WellFormed p i = true) : decode p (encode i) = i := by
  cases i with
  | unrecognized w => exact ((decode_reads p w).unrecognized_iff w).2 ⟨rfl, h⟩
  | sys nnn =>
    have hsys : clsOrRetWord p (nnnField (wordN 0x0 nnn)) = false := by simpa [WellFormed] using h
    rw [encode, decode_of_op0 (by simp), decodeFamily0_of_sys hsys, nnnField_wordN]
  | cls => rw [encode, decode_of_op0 rfl, decodeFamily0, if_pos ⟨rfl, .inr rfl⟩]
  | ret =>
    have hk : kkField 0x00EE ≠ 0xE0 := by decide
    rw [encode, decode_of_op0 rfl, decodeFamily0, if_neg fun hc => hk hc.1, if_pos ⟨rfl, .inr rfl⟩]
  | seReg x y => rw [encode, decode_of_op5 (by simp)]; simp
  | sneReg x y => rw [encode, decode_of_op9 (by simp)]; simp
  | jpV0 nnn =>
    have he : p.extraOps = true := h
    rw [encode, decode_of_opB (by simp), if_pos he, nnnField_wordN]
  | subn x y =>
    have he : p.extraOps = true := h
    rw [encode, decode_of_op8 (by simp)]; simp [decodeFamily8, he]
  | ldReg | orReg | andReg | xorReg | addReg | sub | shr | shl =>
    rw [encode, decode_of_op8 (by simp)]; simp [decodeFamily8]
  | skp | sknp => simp [encode, decode, decodeFamilyE]
  | ldVxDt | ldVxK | ldDtVx | ldStVx | addIVx | ldFVx | ldBVx | ldMemVx | ldVxMem =>
    simp [encode, decode, decodeFamilyF]
  | jp | call | ldI | seImm | sneImm | ldImm | addImm | rnd | drw => simp [encode, decode]

end Sys2Proof

namespace Sys2Proof.Machine

open Sys2Proof.Claims

/-- After the poll, Execute performs the instruction that the bytes at `PC` decode to (R80, R271). -/
theorem execute_of_fetches {s : State} {i : Instr} (h : fetches s i) :
    execute s.takeKeys = exec i s.takeKeys := by
  obtain ⟨hpc, hdec⟩ := h
  obtain ⟨hgt, -⟩ | ⟨-, hx⟩ := execute_cases s.takeKeys
  · exact absurd hgt (Nat.not_lt.2 hpc)
  · rw [hx]; exact congrArg (exec · s.takeKeys) hdec

end Sys2Proof.Machine

namespace Sys2Proof.Claims

open Sys2Proof.Machine

/-- Settles O1: instruction by instruction, the fields of the encoded word lead the decoder back. -/
theorem decodeOfEncode : Obligations.DecodeOfEncode := fun _ _ => decode_encode

/-- Settles O2: family by family, what a word decodes to exists under the configuration. -/
theorem decodedIsWellFormed : Obligations.DecodedIsWellFormed := fun p w => (decode_reads p w).wellFormed

/-- Settles O3: family by family, the fields that the decoder keeps or has examined make up the word. -/
theorem strictDecodeKeepsEveryBit : Obligations.StrictDecodeKeepsEveryBit :=
  fun p w => (decode_reads p w).encode_eq

/-- Settles O6: family by family, the branches that answer UNRECOGNIZED are the listed space. -/
theorem unrecognizedSpace : Obligations.UnrecognizedSpace := by
  intro p w
  have hiff := (decode_reads p w).unrecognized_iff
  refine ⟨⟨?_, fun hw => ⟨w, (hiff w).2 ⟨rfl, hw⟩⟩⟩, fun u hu => ((hiff u).1 hu).1⟩
  rintro ⟨u, hu⟩
  exact ((hiff u).1 hu).2

/-- Settles O4: in family 0x0 the low byte and bits 11:8 make up the word; in families 0x5 and 0x9 the
decoder looks at the low nibble. -/
theorem decodeStrictFamilies : Obligations.DecodeStrictFamilies := by
  intro p w
  rw [← opField_toNat]
  refine ⟨fun ho hs => ?_, fun ho hs => ?_, fun ho => ?_, fun ho => ?_⟩
  · have hE0 : w = 0x00E0 ↔ _ := eq_word_iff_of_op0 ho 0xE0
    have hEE : w = 0x00EE ↔ _ := eq_word_iff_of_op0 ho 0xEE
    simp only [decode_of_op0 ho, decodeFamily0, hs, hE0, hEE, Bool.true_eq_false, false_or]
  · simp only [decode_of_op0 ho, decodeFamily0, hs, kkField_eq_iff, true_or, and_true]; rfl
  · simp only [decode_of_op5 ho, Ne, nField_eq_zero_iff]
  · simp only [decode_of_op9 ho, Ne, nField_eq_zero_iff]

/-- Settles O5: the branch of family 0x8 for the low nibble 7, and family 0xB. -/
theorem extraOpsDecode : Obligations.ExtraOpsDecode := by
  intro p w
  rw [← opField_toNat, ← nField_val]
  refine ⟨fun ⟨ho, hn⟩ => ?_, decode_of_opB⟩
  rw [decode_of_op8 ho]
  simp only [decodeFamily8, hn]

/-- Settles O7: nineteen closed words, decoded by evaluation. -/
theorem specWordsDecode : Obligations.SpecWordsDecode := by
  unfold Obligations.SpecWordsDecode; decide

/-- Settles O9: the frame reaches Execute, which performs the fetched instruction. -/
theorem stepRunsFetchedInstruction : Obligations.StepRunsFetchedInstruction :=
  fun _ _ hreach hfetch _ hu => step_of_execute hreach ((execute_of_fetches hfetch).trans hu)

end Sys2Proof.Claims

namespace Sys2Proof.Machine

/-! ### Addresses and the stack pointer, by their numbers (R38, R82) -/

theorem addr16_toNat (nnn : Addr12) : (addr16 nnn).toNat = nnn.toNat :=
  BitVec.toNat_setWidth_of_le (by decide)

/-- JP V0's target needs no mask: its two parts do not overflow 16 bits (R114). -/
theorem addr16_add_byte16_toNat (nnn : Addr12) (b : Byte) :
    (addr16 nnn + byte16 b).toNat = nnn.toNat + b.toNat := by
  unfold addr16 byte16; bv_omega

theorem State.push_sp_toNat (s : State) (a : Word) : (s.push a).sp.toNat = (s.sp.toNat + 1) % 16 := by
  rw [State.push_sp]; bv_omega

theorem State.pop_sp_toNat (s : State) : s.pop.sp.toNat = (s.sp.toNat + 15) % 16 := by
  rw [State.pop_sp]; bv_omega

theorem State.stackAt_push_other {s : State} (a : Word) {j : BitVec 4} (h : j ≠ s.sp) :
    (s.push a).stackAt j = s.stackAt j := by
  rw [State.stackAt_push, if_neg h.symm]

/-- A RET after a CALL reads the entry that the CALL wrote, wherever `SP` stands. -/
theorem State.stackAt_pop_push (s : State) (a : Word) : (s.push a).pop.stackAt (s.push a).pop.sp = a := by
  simp [State.stackAt_push]

/-! ### CALL and RET (R112, R113) -/

/-- The check of a stack instruction passes when the stack wraps or `SP` is not at its end. -/
theorem not_stackFault {o : StackOverflow} {atEnd : Prop} (h : o = .wrap ∨ ¬atEnd) :
    ¬(o = .fault ∧ atEnd) := by
  rintro ⟨rfl, hend⟩
  obtain hwrap | hnot := h
  · cases hwrap
  · exact hnot hend

theorem exec_call_of_room {s : State} (h : s.params.stackOverflow = .wrap ∨ s.sp ≠ 15) (nnn : Addr12) :
    exec (.call nnn) s = .next ((s.push s.pc).jump (addr16 nnn)) :=
  if_neg (not_stackFault h)

theorem exec_call_of_full {s : State} (ho : s.params.stackOverflow = .fault) (hsp : s.sp = 15)
    (nnn : Addr12) : exec (.call nnn) s = .next (s.raise (.stack s.pc)) :=
  if_pos ⟨ho, hsp⟩

theorem exec_ret_of_entry {s : State} (h : s.params.stackOverflow = .wrap ∨ s.sp ≠ 0) :
    exec .ret s = .next (s.pop.jump (s.pop.stackAt s.pop.sp + 2)) :=
  if_neg (not_stackFault h)

theorem exec_ret_of_empty {s : State} (ho : s.params.stackOverflow = .fault) (hsp : s.sp = 0) :
    exec .ret s = .next (s.raise (.stack s.pc)) :=
  if_pos ⟨ho, hsp⟩

/-! ### A result and its flag (R150) -/

theorem State.getV_setV_setFlag (s : State) {x : RegIdx} (b : Byte) (f : Bool) (hx : x ≠ 0xF) :
    ((s.setV x b).setFlag f).getV x = b := by
  rw [State.getV_setFlag_other _ _ hx, State.getV_setV_same]

theorem State.getV_setV_setFlag_other (s : State) {x r : RegIdx} (b : Byte) (f : Bool) (hx : r ≠ x)
    (hf : r ≠ 0xF) : ((s.setV x b).setFlag f).getV r = s.getV r := by
  rw [State.getV_setFlag_other _ _ hf, State.getV_setV_other _ _ hx.symm]

end Sys2Proof.Machine

namespace Sys2Proof.Claims

open Sys2Proof.Machine

/-- Settles O34: below the top or under `wrap` the push writes one entry and the jump only `PC`; at the top
under `fault` the check raises. -/
theorem callPushesAndJumps : Obligations.CallPushesAndJumps := by
  intro s nnn
  refine ⟨fun h => ⟨_, exec_call_of_room h nnn, ?_, fun j hj => ?_, ?_, ?_, rfl, fun _ => rfl⟩,
    fun ho hsp => ⟨_, exec_call_of_full ho hsp nnn, s.raise_spec _⟩⟩
  · exact s.stackAt_push_same s.pc
  · exact State.stackAt_push_other s.pc hj
  · exact s.push_sp_toNat s.pc
  · exact addr16_toNat nnn

/-- Settles O36: under `wrap` neither instruction faults, and the RET reads the entry that the CALL wrote. -/
theorem callThenRetResumes : Obligations.CallThenRetResumes := by
  intro s nnn t hwrap hcall
  cases (exec_call_of_room (.inl hwrap) nnn).symm.trans hcall
  refine ⟨_, exec_ret_of_entry (.inl hwrap), ?_, ?_⟩
  · exact congrArg (· + 2) (s.stackAt_pop_push s.pc)
  · exact BitVec.add_sub_cancel s.sp 1

/-- Settles O32: SYS is the shared advance of `PC`, and JP writes the zero-extended target. -/
theorem sysAndJump : Obligations.SysAndJump := fun _ nnn =>
  ⟨⟨_, rfl, rfl, rfl, fun _ => rfl⟩, ⟨_, rfl, addr16_toNat nnn, rfl, fun _ => rfl⟩⟩

/-- Settles O33: JP V0's sum fits in `PC`; SUBN writes the difference, and then the flag over VF. -/
theorem jumpOffsetAndReverseSubtract : Obligations.JumpOffsetAndReverseSubtract := by
  intro s nnn x y
  refine ⟨⟨_, rfl, addr16_add_byte16_toNat nnn (s.getV 0), rfl, fun _ => rfl⟩,
    ⟨_, rfl, fun hx => ?_, ?_, fun r hr hf => ?_, rfl, rfl, fun _ => rfl⟩⟩
  · rw [State.next_getV, s.getV_setV_setFlag _ _ hx]; bv_omega
  · exact State.getV_setFlag_flag _ _
  · exact s.getV_setV_setFlag_other _ _ hr hf

/-- Settles O35: above the bottom or under `wrap` the pop writes only `SP` and the jump only `PC`; at the
bottom under `fault` the check raises. -/
theorem retPopsAndResumes : Obligations.RetPopsAndResumes := fun s =>
  ⟨fun h => ⟨_, exec_ret_of_entry h, s.pop_sp_toNat, rfl, rfl, fun _ => rfl⟩,
    fun ho hsp => ⟨_, exec_ret_of_empty ho hsp, s.raise_spec _⟩⟩

end Sys2Proof.Claims

namespace Sys2Proof.Machine

/-- Vx times 5 needs no mask: it fits in `I` for every byte (R193). -/
theorem glyphAddr_toNat (b : Byte) : (glyphAddr b).toNat = b.toNat * 5 := by
  unfold glyphAddr byte16; bv_omega

end Sys2Proof.Machine

namespace Sys2Proof.Claims

open Sys2Proof.Machine

/-- The frame of an instruction that writes one register and advances (R32, R34). -/
theorem setV_next_frame (s : State) (x : RegIdx) (b : Byte) :
    otherRegs s (s.setV x b).next x ∧ (s.setV x b).next.pc = s.pc + 2 ∧ onlyRegsPc s (s.setV x b).next :=
  ⟨fun _ hr => s.getV_setV_other b hr.symm, rfl, rfl, fun _ => rfl⟩

/-- The frame of an instruction that writes `I` and advances (R34, R37). -/
theorem setI_next_frame (s : State) (a : Word) :
    (s.setI a).next.pc = s.pc + 2 ∧ onlyIndexPc s (s.setI a).next :=
  ⟨rfl, rfl, fun _ => rfl⟩

/-- Settles O37: each writes one register and advances; the byte sum wraps as `BitVec` addition does. -/
theorem registerTransfers : Obligations.RegisterTransfers := by
  intro s x y kk
  refine ⟨⟨_, rfl, s.getV_setV_same x kk, setV_next_frame s x kk⟩,
    ⟨_, rfl, s.getV_setV_same x (s.getV y), setV_next_frame s x (s.getV y)⟩,
    ⟨_, rfl, ?_, setV_next_frame s x (s.getV x + kk)⟩⟩
  rw [State.next_getV, State.getV_setV_same, BitVec.toNat_add]

/-- Settles O38: each writes `I` whole and advances; neither address overflows 16 bits. -/
theorem indexLoads : Obligations.IndexLoads := fun s =>
  ⟨fun nnn => ⟨_, rfl, addr16_toNat nnn, setI_next_frame s (addr16 nnn)⟩,
    fun x => ⟨_, rfl, glyphAddr_toNat (s.getV x), setI_next_frame s (glyphAddr (s.getV x))⟩⟩

end Sys2Proof.Claims

namespace Sys2Proof.Machine

/-! ### The shifts and their flag (R157, R158) -/

/-- A halved byte needs no mask (R157). -/
theorem shiftRight_toNat (a : Byte) : (shiftRight a).toNat = a.toNat / 2 := by
  unfold shiftRight; bv_omega

theorem shiftLeft_toNat (a : Byte) : (shiftLeft a).toNat = a.toNat * 2 % 256 :=
  BitVec.toNat_ofNat _ 8

/-- The halved byte is at most 127, so the flag read from it is clear whatever bit was shifted out (R157). -/
theorem shiftFlag_shiftRight (a : Byte) : shiftFlag (shiftRight a) = false := by
  have hle : (shiftRight a).toNat < 2 ^ 7 := by rw [shiftRight_toNat]; omega
  exact Nat.testBit_eq_false_of_lt hle

theorem shiftLeft_eq (a : Byte) : shiftLeft a = a <<< 1 := by
  apply BitVec.eq_of_toNat_eq
  rw [shiftLeft_toNat, BitVec.toNat_shiftLeft, Nat.shiftLeft_eq]

/-- Doubling moves bit 6 to the high bit, where the flag reads it (R158). -/
theorem shiftFlag_shiftLeft (a : Byte) : shiftFlag (shiftLeft a) = a.getLsbD 6 := by
  rw [shiftFlag, shiftLeft_eq, BitVec.getLsbD_shiftLeft]; simp

end Sys2Proof.Machine

namespace Sys2Proof.Claims

open Sys2Proof.Machine

/-- What an instruction does that writes a result, then its flag, and advances (R150), by the number its
result has and the byte its flag is: a result that goes to VF is overwritten by the flag. -/
theorem setV_setFlag_next_spec (s : State) (x : RegIdx) {b v : Byte} {f : Bool} {n : Nat}
    (hb : b.toNat = n) (hf : flagByte f = v) :
    (x ≠ 0xF → (((s.setV x b).setFlag f).next.getV x).toNat = n) ∧
      ((s.setV x b).setFlag f).next.getV 0xF = v ∧
      otherRegsVF s ((s.setV x b).setFlag f).next x ∧ ((s.setV x b).setFlag f).next.pc = s.pc + 2 ∧
      onlyRegsPc s ((s.setV x b).setFlag f).next := by
  refine ⟨fun hx => ?_, ?_, fun r hr hrF => ?_, rfl, rfl, fun _ => rfl⟩
  · rw [State.next_getV, s.getV_setV_setFlag b f hx, hb]
  · exact (State.getV_setFlag_flag _ f).trans hf
  · exact s.getV_setV_setFlag_other b f hr hrF

/-- Settles O40: `BitVec` addition is the wrapped sum, and the flag written last is the carry. -/
theorem addSetsCarry : Obligations.AddSetsCarry := fun s x y =>
  ⟨_, rfl, setV_setFlag_next_spec s x (BitVec.toNat_add (s.getV x) (s.getV y)) rfl⟩

/-- Settles O41: `BitVec` subtraction is the wrapped difference, and the flag written last compares the old
operands. -/
theorem subtractSetsExceeds : Obligations.SubtractSetsExceeds := by
  intro s x y
  have hsub : (s.getV x - s.getV y).toNat = ((s.getV x).toNat + 256 - (s.getV y).toNat) % 256 := by bv_omega
  exact ⟨_, rfl, setV_setFlag_next_spec s x hsub rfl⟩

/-- Settles O42: the flag is read from the halved byte, whose high bit is clear. -/
theorem shrClearsFlag : Obligations.ShrClearsFlag := fun s x _ =>
  ⟨_, rfl, setV_setFlag_next_spec s x (shiftRight_toNat (s.getV x))
    (congrArg flagByte (shiftFlag_shiftRight (s.getV x)))⟩

/-- Settles O43: the flag is read from the doubled byte, whose high bit is the old bit 6. -/
theorem shlSetsPostShiftBit : Obligations.ShlSetsPostShiftBit := fun s x _ =>
  ⟨_, rfl, setV_setFlag_next_spec s x (shiftLeft_toNat (s.getV x))
    (congrArg flagByte (shiftFlag_shiftLeft (s.getV x)))⟩

/-- Settles O39: each writes one register, with no flag, and advances; `BitVec`'s operators act bit by bit. -/
theorem bitwiseOperations : Obligations.BitwiseOperations := by
  intro s x y
  refine ⟨⟨_, rfl, fun k => ?_, setV_next_frame s x (s.getV x ||| s.getV y)⟩,
    ⟨_, rfl, fun k => ?_, setV_next_frame s x (s.getV x &&& s.getV y)⟩,
    ⟨_, rfl, fun k => ?_, setV_next_frame s x (s.getV x ^^^ s.getV y)⟩⟩
  · rw [State.next_getV, State.getV_setV_same, BitVec.getLsbD_or]
  · rw [State.next_getV, State.getV_setV_same, BitVec.getLsbD_and]
  · rw [State.next_getV, State.getV_setV_same, BitVec.getLsbD_xor]

end Sys2Proof.Claims

namespace Sys2Proof.Claims

open Sys2Proof.Machine

/-- A skip changes `PC` and nothing else, whichever way it goes (R180). -/
theorem skipIf_onlyPc (s : State) (c : Bool) : onlyPc s (s.skipIf c) := ⟨rfl, fun _ => rfl⟩

/-- What a conditional skip leaves (R180), for the proposition `p` that its Boolean condition decides. -/
theorem skipIf_spec (s : State) {c : Bool} {p : Prop} [Decidable p] (h : c = true ↔ p) :
    (s.skipIf c).pc = (if p then s.pc + 4 else s.pc + 2) ∧ onlyPc s (s.skipIf c) :=
  ⟨(s.skipIf_pc c).trans (if_congr h rfl rfl), skipIf_onlyPc s c⟩

/-- Settles O44: each of the four is `skipIf` on a Boolean comparison, which decides its equality or
inequality. -/
theorem conditionalSkips : Obligations.ConditionalSkips := by
  intro s x y kk
  refine ⟨⟨_, rfl, ?seImm⟩, ⟨_, rfl, ?sneImm⟩, ⟨_, rfl, ?seReg⟩, ⟨_, rfl, ?sneReg⟩⟩
  case seImm | seReg => exact skipIf_spec s beq_iff_eq
  case sneImm | sneReg => exact skipIf_spec s bne_iff_ne

end Sys2Proof.Claims

namespace Sys2Proof.Machine

open Sys2Proof.Claims

/-! ### Range checks that pass (R190, R191, R194) -/

theorem execLdVxMem_of_le {s : State} {x : RegIdx} (h : s.i.toNat + x.val ≤ 0xFFF) :
    execLdVxMem x s = .next (s.loadRegs x s.i.toNat).next :=
  if_neg (Nat.not_lt.2 h)

theorem execLdBVx_of_le {s : State} {x : RegIdx} (h : s.i.toNat + 2 ≤ 0xFFF) :
    execLdBVx x s = .next (s.store s.i.toNat (bcdDigits (s.getV x))).next :=
  if_neg (Nat.not_lt.2 h)

/-! ### Range checks that fail (R61, R262) -/

/-- A meaning whose range check fails raises BoundsFault, whatever it would do otherwise. -/
theorem boundsFaults_of_check {c : Prop} [Decidable c] (hc : c) (s : State) (a raised : Nat) (r : Result) :
    ∃ t, (if c then .next (s.raiseBounds a raised) else r) = .next t ∧ boundsFaults s t a raised :=
  ⟨_, if_pos hc, s.raise_spec _⟩

/-- The check of DRW fails exactly for a sprite that does not fit (R231). -/
theorem not_spriteFits_iff (s : State) (n : Nibble) :
    ¬spriteFits s n ↔ n.val > 0 ∧ s.i.toNat + n.val - 1 > 0xFFF := by
  unfold spriteFits; omega

/-! ### ADD I, Vx (R192) -/

theorem execAddIVx_of_fits {s : State} {x : RegIdx}
    (h : indexSum s.i (s.getV x) ≤ 0xFFFF ∨ s.params.iOverflow = .wrap16) :
    execAddIVx x s = .next (s.setI (BitVec.ofNat 16 (indexSum s.i (s.getV x)))).next := by
  refine if_neg ?_
  rintro ⟨hgt, hfault⟩
  obtain hle | hwrap := h
  · exact absurd hgt (Nat.not_lt.2 hle)
  · cases hwrap.symm.trans hfault

theorem execAddIVx_of_overflow {s : State} {x : RegIdx} (ho : s.params.iOverflow = .fault)
    (hgt : indexSum s.i (s.getV x) > 0xFFFF) :
    execAddIVx x s = .next (s.raise (.indexOverflow (indexSum s.i (s.getV x)))) :=
  if_pos ⟨hgt, ho⟩

/-! ### Bytes stored, and the digits that Fx33 stores (R63, R194) -/

theorem State.read_store {s : State} (hm : s.mem.wf) {a k : Nat} {bs : List Byte} (hk : k < bs.length)
    (hfit : a + bs.length ≤ Config.memSize) : (s.store a bs).mem.read (a + k) = bs.getD k 0 := by
  rw [State.store, Memory.read_writeBytes hm _ _ hfit, if_pos (by omega), Nat.add_sub_cancel_left]

/-- A number that a byte bounds needs no mask to be a byte. -/
theorem toNat_ofNat_of_le_byte {b : Byte} {k : Nat} (h : k ≤ b.toNat) : (BitVec.ofNat 8 k).toNat = k := by
  bv_omega

theorem bcdDigits_toNat (b : Byte) :
    ((bcdDigits b).getD 0 0).toNat = b.toNat / 100 ∧ ((bcdDigits b).getD 1 0).toNat = b.toNat / 10 % 10 ∧
      ((bcdDigits b).getD 2 0).toNat = b.toNat % 10 :=
  ⟨toNat_ofNat_of_le_byte (Nat.div_le_self _ _),
    toNat_ofNat_of_le_byte ((Nat.mod_le _ _).trans (Nat.div_le_self _ _)),
    toNat_ofNat_of_le_byte (Nat.mod_le _ _)⟩

end Sys2Proof.Machine

namespace Sys2Proof.Claims

open Sys2Proof.Machine

/-- The frame of an instruction that stores `k + 1` bytes and advances (R34, R46, R63). -/
theorem store_next_frame {s : State} (hm : s.mem.wf) (a : Nat) {bs : List Byte} {k : Nat}
    (hlen : bs.length = k + 1) :
    (∀ a', a' < a ∨ a + k < a' → (s.store a bs).next.mem.read a' = s.mem.read a') ∧
      (s.store a bs).next.pc = s.pc + 2 ∧
      (s.store a bs).next = { s with mem := (s.store a bs).next.mem, pc := (s.store a bs).next.pc } :=
  ⟨fun a' ho => Memory.read_writeBytes_outside hm a bs a' (by omega), rfl, rfl⟩

/-- Settles O45: the check passes, each stored byte is its register, and the stored block has `x + 1` bytes. -/
theorem storeRegisters : Obligations.StoreRegisters := fun s x hm hx =>
  ⟨_, execLdMemVx_of_le hx, fun _ hr => State.read_store_regsUpTo hm hx hr,
    store_next_frame hm s.i.toNat (s.regsUpTo_length x)⟩

/-- Settles O46: the check passes, and the load writes the registers up to `x` and no other. -/
theorem loadRegisters : Obligations.LoadRegisters := by
  intro s x hx
  refine ⟨_, execLdVxMem_of_le hx, fun r hr => ?_, fun r hr => ?_, rfl, rfl, fun _ => rfl⟩
  · rw [State.next_getV, State.getV_loadRegs, if_pos hr]
  · rw [State.next_getV, State.getV_loadRegs, if_neg (Fin.not_le.2 hr)]

/-- Settles O48: the check passes, each stored byte is a digit, and the three digits make up the value. -/
theorem storeDecimalDigits : Obligations.StoreDecimalDigits := by
  intro s x hm hi
  have hread (k : Nat) (hk : k < 3) :
      (s.store s.i.toNat (bcdDigits (s.getV x))).next.mem.read (s.i.toNat + k) =
        (bcdDigits (s.getV x)).getD k 0 :=
    State.read_store hm hk (Nat.succ_le_succ hi)
  obtain ⟨hhundreds, htens, hones⟩ := bcdDigits_toNat (s.getV x)
  rw [← hread 0 (by decide)] at hhundreds
  rw [← hread 1 (by decide)] at htens
  rw [← hread 2 (by decide)] at hones
  refine ⟨_, execLdBVx_of_le hi, hhundreds, htens, hones, ?_, store_next_frame hm s.i.toNat rfl⟩
  rw [Nat.add_zero] at hhundreds
  omega

/-- Settles O47: the check passes when the sum fits or wraps, and `I` is then the sum cut to 16 bits;
otherwise it raises the exact sum. -/
theorem indexAddition : Obligations.IndexAddition := fun s _ =>
  ⟨fun h => ⟨_, execAddIVx_of_fits h, BitVec.toNat_ofNat _ 16, setI_next_frame s _⟩,
    fun ho hgt => ⟨_, execAddIVx_of_overflow ho hgt, s.raise_spec _⟩⟩

/-- Settles O49: the check of each of the four fails and raises the address of its own rule. -/
theorem dataOutOfRangeFaults : Obligations.DataOutOfRangeFaults := fun s =>
  ⟨fun _ hx => ⟨boundsFaults_of_check hx s _ _ _, boundsFaults_of_check hx s _ _ _⟩,
    fun _ hi => boundsFaults_of_check hi s _ _ _,
    fun _ _ n hn => boundsFaults_of_check ((not_spriteFits_iff s n).1 hn) s _ _ _⟩

end Sys2Proof.Claims

namespace Sys2Proof.Machine

/-! ### The keys down (R213) -/

theorem State.mem_keysDown {s : State} {k : Fin 16} : k ∈ s.keysDown ↔ s.key[k.val] = true := by
  simp [State.keysDown]

theorem State.keysDown_eq_nil_iff {s : State} : s.keysDown = [] ↔ ∀ k : Fin 16, s.key[k.val] = false := by
  simp only [List.eq_nil_iff_forall_not_mem, State.mem_keysDown, Bool.not_eq_true]

/-- The keys down are listed in rising order, so the first is the lowest. -/
theorem State.head_le_of_keysDown {s : State} {k j : Fin 16} {ks : List (Fin 16)}
    (hk : s.keysDown = k :: ks) (hj : s.key[j.val] = true) : k ≤ j := by
  have hrising : (k :: ks).Pairwise (· < ·) := hk ▸ (List.pairwise_lt_finRange 16).filter _
  have hmem : j ∈ k :: ks := hk ▸ State.mem_keysDown.2 hj
  obtain rfl | hks := List.mem_cons.1 hmem
  · exact le_rfl
  · exact (List.rel_of_pairwise_cons hrising hks).le

/-! ### The key that Fx0A picks (R213, D12) -/

/-- Whatever `KEY_PICK` and the inputs are, the key picked is one of those given. -/
theorem State.pickKey_mem (s : State) (k : Fin 16) (ks : List (Fin 16)) : s.pickKey k ks ∈ k :: ks := by
  unfold State.pickKey
  split
  · exact List.mem_cons_self
  · exact List.mem_cons_self
  · split
    next hin => exact List.mem_cons_of_mem k hin
    next => exact List.mem_cons_self

theorem State.pickKey_of_lowest {s : State} (h : s.params.keyPick = .lowest) (k : Fin 16) (ks : List (Fin 16)) :
    s.pickKey k ks = k := by
  cases ks <;> simp [State.pickKey, h]

/-- Under `any` the input decides: the key it names is picked, the first of those given included. -/
theorem State.pickKey_of_any {s : State} (h : s.params.keyPick = .any) {k : Fin 16} {ks : List (Fin 16)}
    (hin : s.input.keyPick ∈ k :: ks) : s.pickKey k ks = s.input.keyPick := by
  cases ks with
  | nil => exact (List.mem_singleton.1 hin).symm
  | cons k' ks' =>
    simp only [State.pickKey, h]
    split
    next => rfl
    next hks => exact ((List.mem_cons.1 hin).resolve_right hks).symm

/-! ### LD Vx, K (R213) -/

theorem execLdVxK_of_no_key {s : State} (h : s.keysDown = []) (x : RegIdx) : execLdVxK x s = .next s := by
  rw [execLdVxK, h]

theorem execLdVxK_of_keys {s : State} {k : Fin 16} {ks : List (Fin 16)} (h : s.keysDown = k :: ks) (x : RegIdx) :
    execLdVxK x s = .next (s.setV x (BitVec.ofNat 8 (s.pickKey k ks).val)).next := by
  rw [execLdVxK, h]

/-- A key value needs no mask to be a register's byte. -/
theorem State.getV_setV_key_toNat (s : State) (x : RegIdx) (k : Fin 16) :
    ((s.setV x (BitVec.ofNat 8 k.val)).next.getV x).toNat = k.val := by
  rw [State.next_getV, State.getV_setV_same, BitVec.toNat_ofNat]
  omega

/-- Under `KEY_PICK = any` a key that is down and that the input names is the one stored. -/
theorem execLdVxK_of_choice {s : State} (hany : s.params.keyPick = .any)
    (hdown : s.key[s.input.keyPick.val] = true) (x : RegIdx) :
    execLdVxK x s = .next (s.setV x (BitVec.ofNat 8 s.input.keyPick.val)).next := by
  have hmem : s.input.keyPick ∈ s.keysDown := State.mem_keysDown.2 hdown
  obtain ⟨k, ks, hks⟩ := List.exists_cons_of_ne_nil (List.ne_nil_of_mem hmem)
  rw [execLdVxK_of_keys hks, State.pickKey_of_any hany (hks ▸ hmem)]

/-! ### SKP and SKNP (R211, R212) -/

theorem State.keyDown_of_toNat {s : State} {b : Byte} {k : Fin 16} (h : b.toNat = k.val) :
    s.keyDown b = s.key[k.val] := by
  simp [State.keyDown, h]

theorem execSkp_of_key {s : State} {x : RegIdx} {k : Fin 16} (h : (s.getV x).toNat = k.val) :
    execSkp x s = .next (s.skipIf s.key[k.val]) := by
  rw [execSkp, if_neg (by omega), State.keyDown_of_toNat h]

theorem execSknp_of_key {s : State} {x : RegIdx} {k : Fin 16} (h : (s.getV x).toNat = k.val) :
    execSknp x s = .next (s.skipIf !s.key[k.val]) := by
  rw [execSknp, if_neg (by omega), State.keyDown_of_toNat h]

end Sys2Proof.Machine

namespace Sys2Proof.Claims

open Sys2Proof.Machine

/-- Settles O53: the key stored is picked from the keys down, which are listed from the lowest up, and under
`any` an input that names a key down has it picked. -/
theorem keyWaitStoresAKeyDown : Obligations.KeyWaitStoresAKeyDown := by
  intro s x
  refine ⟨fun hnone => execLdVxK_of_no_key (State.keysDown_eq_nil_iff.2 hnone) x, ?_, ?_⟩
  · rintro ⟨k₁, hk₁⟩
    obtain ⟨k, ks, hks⟩ := List.exists_cons_of_ne_nil (List.ne_nil_of_mem (State.mem_keysDown.2 hk₁))
    have hdown : s.key[(s.pickKey k ks).val] = true :=
      State.mem_keysDown.1 (hks ▸ s.pickKey_mem k ks)
    refine ⟨_, s.pickKey k ks, execLdVxK_of_keys hks x, hdown, fun hlow j hj => ?_,
      s.getV_setV_key_toNat x _, setV_next_frame s x _⟩
    rw [State.pickKey_of_lowest hlow]
    exact State.head_le_of_keysDown hks hj
  · intro k hany hk
    have hstored := execLdVxK_of_choice (s := { s with inputs := [{ s.input with keyPick := k }] }) hany hk x
    exact ⟨_, _, hstored, State.getV_setV_key_toNat _ x k⟩

/-- Settles O51: the byte drawn is the frame's input, whose type is the range, so an input gives each byte. -/
theorem randomByteIsFree : Obligations.RandomByteIsFree := by
  intro s x kk
  refine ⟨⟨_, s.input.rnd.val, Nat.le_of_lt_succ s.input.rnd.isLt, rfl, s.getV_setV_same x _,
    setV_next_frame s x _⟩, fun r hr => ?_⟩
  exact ⟨[{ s.input with rnd := ⟨r, Nat.lt_succ_of_le hr⟩ }], _, rfl, State.getV_setV_same _ x _⟩

/-- Settles O52: a key value passes the check and each skips on its snapshot or the complement; a value above
15 fails the check. -/
theorem keySkips : Obligations.KeySkips := by
  intro s x
  refine ⟨fun k hk => ⟨⟨_, execSkp_of_key hk, skipIf_spec s Iff.rfl⟩, ⟨_, execSknp_of_key hk, ?_⟩⟩,
    fun hgt => ⟨⟨_, if_pos hgt, s.raise_spec _⟩, ⟨_, if_pos hgt, s.raise_spec _⟩⟩⟩
  have hnot : (!s.key[k.val]) = true ↔ ¬s.key[k.val] = true := by simp
  rw [← ite_not]
  exact skipIf_spec s hnot

/-- Settles O54: each is one write of a register or a timer, and the advance. -/
theorem timerMoves : Obligations.TimerMoves := fun s x =>
  ⟨⟨_, rfl, s.getV_setV_same x s.dt, setV_next_frame s x s.dt⟩,
    ⟨_, rfl, rfl, rfl, rfl, fun _ => rfl⟩,
    ⟨_, rfl, rfl, rfl, rfl, fun _ => rfl⟩⟩

end Sys2Proof.Claims

namespace Sys2Proof.Machine

open Sys2Proof.Claims

/-! ### The display-index fault (R233) -/

/-- No display-index fault is recorded. -/
def State.noDisplayFault (s : State) : Prop := ∀ r c, s.cause ≠ some (.displayBounds r c)

/-- A fault of another kind does not become a display-index fault, whether it is recorded or not. -/
theorem State.raise_noDisplayFault {s : State} (hs : s.noDisplayFault) {k : Cause}
    (hk : ∀ r c, k ≠ .displayBounds r c) : (s.raise k).noDisplayFault := by
  intro r c h
  obtain h | ⟨-, h⟩ := Option.or_eq_some_iff.1 h
  · exact hs r c h
  · exact hk r c (Option.some.inj h)

theorem State.poll_noDisplayFault {s : State} (hs : s.noDisplayFault) : s.poll.noDisplayFault := by
  cases hq : s.input.quit with
  | true => rw [State.poll_of_quit hq]; exact State.raise_noDisplayFault (s := s.takeKeys) hs nofun
  | false => rw [State.poll_of_no_quit hq]; exact hs

/-- Every instruction that raises a fault raises one of another kind, DRW included; what else an instruction
does keeps the cause. -/
theorem exec_noDisplayFault {i : Instr} {s t : State} (h : exec i s = .next t) (hs : s.noDisplayFault) :
    t.noDisplayFault := by
  cases i with
  | call | ret | drw | skp | sknp | addIVx | ldBVx | ldMemVx | ldVxMem =>
    obtain ⟨-, rfl⟩ | ⟨-, rfl⟩ := raise_or_next h
    · exact State.raise_noDisplayFault hs nofun
    · exact hs
  | unrecognized w => cases h; exact State.raise_noDisplayFault hs nofun
  | ldVxK x => obtain ⟨-, rfl⟩ | ⟨k, ks, -, rfl⟩ := execLdVxK_cases h <;> exact hs
  | _ => cases h; exact hs

theorem execute_noDisplayFault {s t : State} (h : execute s = .next t) (hs : s.noDisplayFault) :
    t.noDisplayFault := by
  obtain ⟨-, hf⟩ | ⟨-, hx⟩ := execute_cases s
  · cases hf.symm.trans h; exact State.raise_noDisplayFault hs nofun
  · exact exec_noDisplayFault (hx.symm.trans h) hs

/-- The end of a frame, like the end of a run, keeps the cause (R272, R274 to R276). -/
theorem step_noDisplayFault {s t : State} (h : step s = .next t) (hs : s.noDisplayFault) :
    t.noDisplayFault := by
  have hpoll := State.poll_noDisplayFault hs
  obtain ⟨-, ⟨-, rfl⟩ | ⟨-, u, hu, rfl⟩⟩ := step_cases h
  · exact hpoll
  · exact (execute_noDisplayFault hu hpoll : u.noDisplayFault)

/-! ### A sprite's set bits and its pixels (R231) -/

theorem rowOffset_wrapRow (cy : Nat) {k : Nat} (h : k < 32) : rowOffset cy (wrapRow (cy + k)) = k := by
  simp only [rowOffset, wrapRow]; omega

theorem colOffset_wrapCol (cx : Nat) {k : Nat} (h : k < 64) : colOffset cx (wrapCol (cx + k)) = k :=
  (wrapCol_eq_iff cx _ k h).1 rfl

/-- Counted from the left, the first set bit of a nonzero byte. -/
theorem exists_set_bit {b : Byte} (h : b ≠ 0) : ∃ k < 8, b.getLsbD (7 - k) = true :=
  ⟨b.clz.toNat, BitVec.clz_lt_iff_ne_zero.2 h, BitVec.getLsbD_true_clz_of_ne_zero (by decide) h⟩

/-- A sprite no taller than the display has a pixel on some cell exactly when one of its bytes is not 0: each
set bit lands on a cell of its own, wherever the sprite is drawn. -/
theorem exists_spritePixel_iff (cx cy : Nat) {bs : List Byte} (hl : bs.length ≤ 32) :
    (∃ r c, spritePixel cx cy bs r c = true) ↔ ∃ k < bs.length, bs.getD k 0 ≠ 0 := by
  simp only [spritePixel_eq, Bool.and_eq_true, decide_eq_true_eq]
  constructor
  · rintro ⟨r, c, ⟨hr, -⟩, hbit⟩
    refine ⟨_, hr, fun h0 => ?_⟩
    rw [h0] at hbit
    simp at hbit
  · rintro ⟨k, hk, hne⟩
    obtain ⟨j, hj, hbit⟩ := exists_set_bit hne
    refine ⟨wrapRow (cy + k), wrapCol (cx + j), ?_⟩
    rw [rowOffset_wrapRow cy (by omega), colOffset_wrapCol cx (by omega)]
    exact ⟨⟨hk, hj⟩, hbit⟩

/-! ### What DRW reads: its coordinates and its sprite (R231) -/

theorem State.getV_coordState_toNat (s : State) (x : RegIdx) : (s.coordState.getV x).toNat = drawCoord s x := by
  cases hl : s.params.drwCoordLatch with
  | beforeClear => simp [State.coordState, drawCoord, hl]
  | afterClear =>
    by_cases hx : x = 0xF
    · simp [State.coordState, drawCoord, hl, hx]
    · simp [State.coordState, drawCoord, hl, hx, State.getV_setV, Ne.symm hx]

theorem Memory.readBytes_eq_map (m : Memory) (a n : Nat) :
    m.readBytes a n = (List.range n).map fun k => m.read (a + k) := by
  induction n generalizing a with
  | zero => rfl
  | succ n ih =>
    rw [Memory.readBytes, ih, List.range_succ_eq_map, List.map_cons, List.map_map]
    simp [Function.comp_def, Nat.add_assoc, Nat.add_comm 1]

theorem spriteBytes_length (s : State) (n : Nibble) : (spriteBytes s n).length = n.val := by
  simp [spriteBytes]

/-- A sprite is at most 15 rows high, so it never meets itself around the display's edge. -/
theorem spriteBytes_length_le (s : State) (n : Nibble) : (spriteBytes s n).length ≤ 32 := by
  rw [spriteBytes_length]; omega

theorem spriteBytes_getD (s : State) {n : Nibble} {k : Nat} (h : k < n.val) :
    (spriteBytes s n).getD k 0 = s.mem.read (s.i.toNat + k) := by
  simp [spriteBytes, List.getD_eq_getElem?_getD, h]

theorem exists_drawsOn_iff (s : State) (x y : RegIdx) (n : Nibble) :
    (∃ r c, drawsOn s x y n r c = true) ↔ ∃ k, k < n.val ∧ s.mem.read (s.i.toNat + k) ≠ 0 := by
  refine (exists_spritePixel_iff _ _ (spriteBytes_length_le s n)).trans (exists_congr fun k => ?_)
  rw [spriteBytes_length]
  exact and_congr_right fun hk => by rw [spriteBytes_getD s hk]

/-! ### What DRW leaves (R231, R232) -/

/-- The display and the collision that DRW computes. -/
def State.drawn (s : State) (x y : RegIdx) (n : Nibble) : Display × Bool :=
  drawSprite (drawCoord s x) (s.disp, false) (drawCoord s y) (spriteBytes s n)

/-- The state after a DRW that does not fault. -/
def State.afterDraw (s : State) (x y : RegIdx) (n : Nibble) : State :=
  ((s.setDisplay (s.drawn x y n).1).setFlag (s.drawn x y n).2).next

theorem exec_drw_of_fits {s : State} {n : Nibble} (h : spriteFits s n) (x y : RegIdx) :
    exec (.drw x y n) s = .next (s.afterDraw x y n) := by
  refine (if_neg fun hc => (not_spriteFits_iff s n).2 hc h).trans ?_
  simp only [State.getV_coordState_toNat, Memory.readBytes_eq_map]
  rfl

theorem State.afterDraw_cell (s : State) (x y : RegIdx) (n : Nibble) (r : Fin 32) (c : Fin 64) :
    (s.afterDraw x y n).disp.cell r c = (s.disp.cell r c ^^ drawsOn s x y n r c) :=
  drawSprite_cell _ _ _ (spriteBytes_length_le s n) _ r c

theorem State.afterDraw_getV_flag (s : State) (x y : RegIdx) (n : Nibble) :
    (s.afterDraw x y n).getV 0xF = flagByte (s.drawn x y n).2 :=
  State.getV_setFlag_flag _ _

theorem flagByte_eq_one_iff (f : Bool) : flagByte f = 1 ↔ f = true := by cases f <;> decide

/-- VF after a draw tells whether some set pixel met a set cell. -/
theorem State.afterDraw_flag_iff (s : State) (x y : RegIdx) (n : Nibble) :
    (s.afterDraw x y n).getV 0xF = 1 ↔
      ∃ r c, drawsOn s x y n r c = true ∧ s.disp.cell r c = true := by
  rw [State.afterDraw_getV_flag, flagByte_eq_one_iff]
  refine (drawSprite_collision _ _ _ (spriteBytes_length_le s n) _).trans ?_
  exact or_iff_right Bool.false_ne_true

theorem State.afterDraw_getV_other (s : State) (x y : RegIdx) (n : Nibble) {r : RegIdx} (h : r ≠ 0xF) :
    (s.afterDraw x y n).getV r = s.getV r :=
  State.getV_setFlag_other _ _ h

/-! ### The same draw again (R234) -/

/-- A coordinate register that is not VF keeps its value over a draw, and VF's latch does not reach it. -/
theorem drawCoord_afterDraw (s : State) (x y : RegIdx) (n : Nibble) {z : RegIdx} (hz : z ≠ 0xF) :
    drawCoord (s.afterDraw x y n) z = drawCoord s z := by
  simp [drawCoord, hz, s.afterDraw_getV_other x y n hz]

/-- A second draw has the first one's picture, with neither coordinate in VF. -/
theorem drawsOn_afterDraw (s : State) {x y : RegIdx} (n : Nibble) (hx : x ≠ 0xF) (hy : y ≠ 0xF) (r : Fin 32)
    (c : Fin 64) : drawsOn (s.afterDraw x y n) x y n r c = drawsOn s x y n r c := by
  rw [drawsOn, drawCoord_afterDraw s x y n hx, drawCoord_afterDraw s x y n hy]; rfl

/-- XOR with the same picture twice gives back every cell. -/
theorem State.afterDraw_afterDraw_disp (s : State) {x y : RegIdx} (n : Nibble) (hx : x ≠ 0xF) (hy : y ≠ 0xF) :
    ((s.afterDraw x y n).afterDraw x y n).disp = s.disp := by
  refine Display.ext_cell fun r c => ?_
  rw [State.afterDraw_cell, State.afterDraw_cell, drawsOn_afterDraw s n hx hy, Bool.xor_assoc, Bool.xor_self,
    Bool.xor_false]

/-- A cell under the sprite is set for the second draw when it was 0 before the first. -/
theorem State.afterDraw_afterDraw_flag_iff (s : State) {x y : RegIdx} (n : Nibble) (hx : x ≠ 0xF)
    (hy : y ≠ 0xF) :
    ((s.afterDraw x y n).afterDraw x y n).getV 0xF = 1 ↔
      ∃ r c, drawsOn s x y n r c = true ∧ s.disp.cell r c = false := by
  refine (State.afterDraw_flag_iff _ x y n).trans (exists_congr fun r => exists_congr fun c => ?_)
  rw [drawsOn_afterDraw s n hx hy, State.afterDraw_cell]
  refine and_congr_right fun hd => ?_
  rw [hd, Bool.xor_true, Bool.not_eq_true']

end Sys2Proof.Machine

namespace Sys2Proof.Claims

open Sys2Proof.Machine

/-- Settles O22: the poll, the fetch and the instructions raise only faults of other kinds. -/
theorem displayBoundsUnreachable : Obligations.DisplayBoundsUnreachable := fun _ _ => step_noDisplayFault

/-- Settles O56: the check passes; the drawing loop XORs the sprite's picture and ORs its collisions, and VF is
the one register written. -/
theorem drawXorsSprite : Obligations.DrawXorsSprite := by
  intro s x y n hfits
  refine ⟨_, exec_drw_of_fits hfits x y, s.afterDraw_cell x y n, ?_, s.afterDraw_flag_iff x y n,
    fun r hr => s.afterDraw_getV_other x y n hr, rfl, rfl, rfl, fun _ => rfl⟩
  rw [s.afterDraw_getV_flag x y n]
  exact ite_eq_or_eq _ _ _

/-- Settles O57: the second draw has the first one's picture, over cells that the first has inverted. -/
theorem drawTwiceRestores : Obligations.DrawTwiceRestores := by
  intro s x y n t u hx hy hfits ht hu
  cases (exec_drw_of_fits hfits x y).symm.trans ht
  cases (exec_drw_of_fits (s := s.afterDraw x y n) hfits x y).symm.trans hu
  have hflag := s.afterDraw_afterDraw_flag_iff n hx hy
  refine ⟨s.afterDraw_afterDraw_disp n hx hy, hflag, fun hclear => ?_⟩
  rw [hflag, ← exists_drawsOn_iff s x y n]
  exact exists_congr fun r => exists_congr fun c => and_iff_left_of_imp (hclear r c)

/-- Settles O55: CLS writes the blank display and, under `CLS_DIRTY`, the dirty flag. -/
theorem clearDisplay : Obligations.ClearDisplay := fun _ =>
  ⟨_, rfl, Display.cell_blank, rfl, rfl, rfl, fun _ => rfl⟩

end Sys2Proof.Claims

namespace Sys2Proof.Machine

open Sys2Proof.Claims

/-! ### The end of a frame (R274, R275, R276) -/

theorem State.finishFrame_renderOut (u : State) :
    u.finishFrame.renderOut = if u.dirty then some u.disp else none := rfl

theorem State.finishFrame_toneOut (u : State) :
    u.finishFrame.toneOut = if u.finishFrame.st = 0 then .stop else .start := rfl

theorem State.finishFrame_renderOut_isSome (u : State) : u.finishFrame.renderOut.isSome = u.dirty := by
  rw [State.finishFrame_renderOut]
  cases u.dirty <;> rfl

theorem State.finishFrame_dt_toNat (u : State) : u.finishFrame.dt.toNat = u.dt.toNat - 1 :=
  decTimer_toNat u.dt

theorem State.finishFrame_st_toNat (u : State) : u.finishFrame.st.toNat = u.st.toNat - 1 :=
  decTimer_toNat u.st

/-- The tone is requested exactly when the ticked sound timer is positive. -/
theorem State.finishFrame_toneOut_eq_start_iff (u : State) :
    u.finishFrame.toneOut = .start ↔ u.finishFrame.st.toNat > 0 := by
  rw [State.finishFrame_toneOut, gt_iff_lt, Nat.pos_iff_ne_zero, ne_eq, ← BitVec.toNat_zero (w := 8),
    BitVec.toNat_inj]
  by_cases h : u.finishFrame.st = 0 <;> simp [h]

/-! ### A halted state and its cause (R261, R268) -/

/-- Raising a fault in a machine that has halted with a cause changes nothing. -/
theorem State.raise_of_halted {s : State} (hh : s.halted = true) (hc : s.cause.isSome) (c : Cause) :
    s.raise c = s := by
  obtain ⟨d, hd⟩ := Option.isSome_iff_exists.1 hc
  rw [State.raise, hd, Option.some_or, ← hh, ← hd]

/-- The poll of a machine that has halted with a cause only replaces the keys, a quit or none. -/
theorem State.poll_of_halted {s : State} (hh : s.halted = true) (hc : s.causeAgrees) :
    s.poll = s.takeKeys := by
  cases hq : s.input.quit with
  | true => rw [State.poll_of_quit hq, s.takeKeys.raise_of_halted hh (hc.symm.trans hh)]
  | false => exact State.poll_of_no_quit hq

theorem State.poll_halted_of_halted {s : State} (hh : s.halted = true) : s.poll.halted = true := by
  rw [State.poll_halted, hh, Bool.true_or]

theorem State.poll_cause_of_some {s : State} {c : Cause} (hc : s.cause = some c) : s.poll.cause = some c := by
  rw [State.poll_cause, hc, Option.some_or, ite_self]

/-- An instruction leaves `Halted` and the cause alone, or raises a fault. -/
theorem Effect.keeps_or_raises {i : Instr} {s t : State} (he : Effect s i t) :
    (t.halted = s.halted ∧ t.cause = s.cause) ∨ ∃ c, t = s.raise c := by
  cases he with
  | raise i c => exact .inr ⟨c, rfl⟩
  | _ => exact .inl ⟨rfl, rfl⟩

theorem Effect.halted_of_halted {i : Instr} {s t : State} (he : Effect s i t) (hh : s.halted = true) :
    t.halted = true := by
  obtain ⟨hkeep, -⟩ | ⟨c, rfl⟩ := he.keeps_or_raises
  · exact hkeep.trans hh
  · rfl

theorem Effect.cause_of_some {i : Instr} {s t : State} (he : Effect s i t) {c : Cause}
    (hc : s.cause = some c) : t.cause = some c := by
  obtain ⟨-, hkeep⟩ | ⟨k, rfl⟩ := he.keeps_or_raises
  · exact hkeep.trans hc
  · rw [State.raise_cause, hc, Option.some_or]

/-! ### Every instruction answers (R260) -/

theorem exists_next_of_check {c : Prop} [Decidable c] (s t : State) :
    ∃ u, (if c then .next s else .next t : Result) = .next u := by
  split <;> exact ⟨_, rfl⟩

theorem exec_exists_next (i : Instr) (s : State) : ∃ t, exec i s = .next t := by
  cases i with
  | call | ret | drw | skp | sknp | addIVx | ldBVx | ldMemVx | ldVxMem => exact exists_next_of_check _ _
  | ldVxK x => cases hk : s.keysDown with
    | nil => exact ⟨_, execLdVxK_of_no_key hk x⟩
    | cons k ks => exact ⟨_, execLdVxK_of_keys hk x⟩
  | _ => exact ⟨_, rfl⟩

/-! ### The dirty flag (R43, R230, R232) -/

/-- The dirty flag after an instruction that does not fault: it was set, or a draw or a clear has set it. -/
theorem exec_dirty_iff {i : Instr} {s u : State} (h : exec i s = .next u) (hu : u.running) :
    u.dirty = true ↔
      s.dirty = true ∨ (∃ x y n, i = .drw x y n) ∨ (i = .cls ∧ s.params.clsDirty = true) := by
  cases i with
  | cls => cases h; simp
  | call | ret | drw | skp | sknp | addIVx | ldBVx | ldMemVx | ldVxMem =>
    obtain ⟨-, rfl⟩ | ⟨-, rfl⟩ := raise_or_next h
    · cases hu
    · simp
  | unrecognized w => cases h; cases hu
  | ldVxK x => obtain ⟨-, rfl⟩ | ⟨k, ks, -, rfl⟩ := execLdVxK_cases h <;> simp
  | _ => cases h; simp

end Sys2Proof.Machine

namespace Sys2Proof.Claims

open Sys2Proof.Machine

/-- Settles O58: UNRECOGNIZED does nothing but raise its fault. -/
theorem unrecognizedFaults : Obligations.UnrecognizedFaults := fun s _ => ⟨_, rfl, s.raise_spec _⟩

/-- Settles O15: a frame that starts clean renders when its instruction has set the dirty flag. -/
theorem renderOnlyAfterDrawOrClear : Obligations.RenderOnlyAfterDrawOrClear := by
  intro s i t hreach hfetch hclean h ht
  obtain ⟨u, hu⟩ := exec_exists_next i s.takeKeys
  cases (stepRunsFetchedInstruction s i hreach hfetch u hu).symm.trans h
  rw [State.finishFrame_renderOut_isSome, exec_dirty_iff hu ht, State.takeKeys_dirty, hclean]
  exact or_iff_right Bool.false_ne_true

/-- Settles O21: the poll and every instruction keep `Halted` and a recorded cause, and the rest of a frame
writes neither. -/
theorem haltedIsTerminal : Obligations.HaltedIsTerminal := fun _ _ h =>
  ⟨step_keeps (I := fun s => s.halted = true) (fun _ => State.poll_halted_of_halted)
      (fun _ _ _ he => he.halted_of_halted) (fun _ => id) (fun _ => id) h,
    fun c => step_keeps (I := fun s => s.cause = some c) (fun _ => State.poll_cause_of_some)
      (fun _ _ _ he => he.cause_of_some) (fun _ => id) (fun _ => id) h⟩

/-- Settles O29: the answer is an effect, which keeps `Halted` and the cause or raises a fault. -/
theorem everyInstructionAnswers : Obligations.EveryInstructionAnswers := by
  intro i s
  obtain ⟨t, h⟩ := exec_exists_next i s
  refine ⟨t, h, (exec_effect h).keeps_or_raises.imp_right ?_⟩
  rintro ⟨c, rfl⟩
  exact ⟨rfl, by simp⟩

/-- Settles O30: ADD I, CALL and RET fault only where their check has found the parameter at `fault`; an
instruction without a check, UNRECOGNIZED apart, keeps `Halted`. -/
theorem onlyListedInstructionsFault : Obligations.OnlyListedInstructionsFault := by
  intro i s t h hs ht
  have hchanged : t.halted ≠ s.halted := by rw [ht, hs]; decide
  cases i with
  | unrecognized | drw | ldBVx | ldMemVx | ldVxMem | skp | sknp => simp
  | addIVx x =>
    obtain ⟨⟨-, hfault⟩, -⟩ | ⟨-, rfl⟩ := raise_or_next h
    · simp [hfault]
    · exact absurd rfl hchanged
  | call | ret =>
    obtain ⟨⟨hfault, -⟩, -⟩ | ⟨-, rfl⟩ := raise_or_next h
    · simp [hfault]
    · exact absurd rfl hchanged
  | ldVxK x => obtain ⟨-, rfl⟩ | ⟨k, ks, -, rfl⟩ := execLdVxK_cases h <;> exact absurd rfl hchanged
  | _ => cases h; exact absurd rfl hchanged

/-- Settles O10: the timers and the tone by their numbers; the render and the other fields are as the
frame's end writes them. -/
theorem frameEndRendersTicksAndSounds : Obligations.FrameEndRendersTicksAndSounds := fun u =>
  ⟨u.finishFrame_renderOut, rfl, u.finishFrame_dt_toNat, u.finishFrame_st_toNat,
    u.finishFrame_toneOut_eq_start_iff, rfl⟩

/-- Settles O12: the poll raises the quit, and the halt check after it ends the run. -/
theorem quitEndsRun : Obligations.QuitEndsRun := by
  intro s hstop _ hquit
  have hpoll := State.poll_of_quit hquit
  have hstep := step_of_halted hstop (congrArg State.halted hpoll)
  rw [hpoll] at hstep
  obtain ⟨hhalted, hfirst, hstands⟩ := s.takeKeys.raise_spec .quit
  exact ⟨_, hstep, hhalted, rfl, rfl, rfl, hfirst, hstands, rfl⟩

/-- Settles O13: the poll of a halted machine only replaces the keys, whether it sees a quit or not. -/
theorem haltCheckEndsRun : Obligations.HaltCheckEndsRun := by
  intro s hstop hh hc
  have hstep := step_of_halted hstop (State.poll_halted_of_halted hh)
  rw [State.poll_of_halted hh hc] at hstep
  exact ⟨_, hstep, hh, rfl, rfl, rfl, rfl, rfl⟩

/-- Settles O14: the step looks at `stop` first. -/
theorem endedRunTakesNoStep : Obligations.EndedRunTakesNoStep := fun _ => step_of_stop

/-- Settles O16: the tick comes after the instruction, so it counts what Fx15 and Fx18 have written, and Fx07
reads what it has not yet counted. -/
theorem timerWriteTicksInItsFrame : Obligations.TimerWriteTicksInItsFrame := fun s x hreach =>
  ⟨fun hfetch => ⟨_, stepRunsFetchedInstruction s _ hreach hfetch _ rfl, State.finishFrame_dt_toNat _⟩,
    fun hfetch => ⟨_, stepRunsFetchedInstruction s _ hreach hfetch _ rfl, State.finishFrame_st_toNat _⟩,
    fun hfetch => ⟨_, stepRunsFetchedInstruction s _ hreach hfetch _ rfl,
      s.takeKeys.getV_setV_same x s.dt⟩⟩

/-- Settles O17: with no key in the snapshot Fx0A leaves the state as the poll left it, and the frame ends. -/
theorem keyWaitReExecutes : Obligations.KeyWaitReExecutes := by
  intro s x hreach hfetch hnone
  have hwait : exec (.ldVxK x) s.takeKeys = .next s.takeKeys :=
    execLdVxK_of_no_key (State.keysDown_eq_nil_iff.2 hnone) x
  have hstep := stepRunsFetchedInstruction s _ hreach hfetch _ hwait
  obtain ⟨-, hrun, -⟩ := hreach
  exact ⟨_, hstep, rfl, rfl, hrun, s.takeKeys.finishFrame_dt_toNat, s.takeKeys.finishFrame_st_toNat⟩

end Sys2Proof.Claims
